-- ==== Sys2Proof/Word.lean ====
section
/-! DEFINITION. The word types of the engine (R8: all unsigned) and the record of the eight header fields (R12, R45). -/

namespace Sys2Proof

/-- A byte (R8). -/
abbrev Byte := BitVec 8

/-- A 16-bit value: ports, control word, window, checksum, urgent pointer, a word of a sum. -/
abbrev Half := BitVec 16

/-- A 32-bit value: sequence numbers, IPv4 addresses (R31), the accumulator. -/
abbrev Word := BitVec 32

/-- A byte sequence, index 0 first (R8). -/
abbrev Bytes := List Byte

/-- The eight fields of the fixed header, as numbers (R12, R45), in wire order. -/
structure Header where
  sport : Half
  dport : Half
  seq : Word
  ackn : Word
  ctrl : Half
  win : Half
  csum : Half
  urgp : Half
  deriving DecidableEq, Repr

end Sys2Proof
end

