-- ==== Sys2Proof/Config.lean ====
section
/-! DEFINITION. What is fixed when the engine is built (R7, R147), and the generator the spec leaves uninterpreted (R108). -/

namespace Sys2Proof

/-- The parameters R7 leaves open (log entry 1). They are fixed at build time and are no registers (R147): no step changes
them. `httpKnown` lists answers of the HTTP generator that a run is given as known (log entry 2). -/
structure Config where
  /-- `MAX_LEN`: capacity in bytes of the wire buffers (R7, D7). -/
  maxLen : Nat
  /-- `REPLY_WINDOW`: the window of every reply (R7, R109, D11). -/
  replyWindow : Half
  /-- Requests of the generator whose answers are known, first match first. -/
  httpKnown : List (Bytes × Bytes)
  deriving DecidableEq, Repr

/-- The legal range of `MAX_LEN` (R7). -/
abbrev Config.Legal (c : Config) : Prop := 60 ≤ c.maxLen ∧ c.maxLen ≤ 65535

/-- The defaults of R7: `MAX_LEN` 65535, `REPLY_WINDOW` 0xFFFF, nothing known of the generator. -/
def Config.standard : Config := { maxLen := 65535, replyWindow := 0xFFFF, httpKnown := [] }

/-- The HTTP generator where nothing is known of it: any total function on byte sequences (R108, D17, U5). It has no body, so
no proof can use a value of it (log entry 2). -/
opaque Config.httpOpen : Bytes → Bytes

end Sys2Proof
end

