-- ==== Sys2Proof/Machine/State.lean ====
section
/-! DEFINITION. The state: the registers of R11, the configuration of R7, the inputs of a step (R22) and the host's remaining
actions (R38, R39); the reasons a step can stop; the state after reset (R23). -/

namespace Sys2Proof.Machine

/-- A segment value (R8, R12): the eight header fields, the options, the payload and the addressing context. -/
structure Segment extends Header where
  opt : Bytes
  pay : Bytes
  src : Word
  dst : Word
  deriving DecidableEq, Repr

/-- The outcome codes of R126, by name. -/
inductive Status where
  | ok
  | truncated
  | policyReject
  | unhandled
  | illegalCmd
  | noSegment
  | lengthOverflow
  | badChecksum
  deriving DecidableEq, Repr

/-- The registers of R11, in its numbering. -/
inductive Reg where
  | cmd | status | flags | ibuf | ibufLen | inSrc | inDst | obuf | obufLen | acc | ckout
  | segSport | segDport | segSeq | segAckn | segCtrl | segWin | segCsum | segUrgp | segSrc | segDst
  | segOpt | optLen | segPay | payLen
  deriving DecidableEq, Repr

/-- What a register holds, as the host reads it: a number, widened with zeros to 32 bits, or a byte sequence. -/
inductive RegValue where
  | num (v : Word)
  | seq (b : Bytes)
  deriving DecidableEq, Repr

/-- The buffers the host may load (R11, host column). -/
inductive LoadBuf where
  | ibuf
  | segOpt
  | segPay
  deriving DecidableEq, Repr

/-- The 16-bit registers the host may write (R11, host column). -/
inductive HalfReg where
  | segSport | segDport | segCtrl | segWin | segCsum | segUrgp
  deriving DecidableEq, Repr

/-- The 32-bit registers the host may write (R11, host column). -/
inductive WordReg where
  | inSrc | inDst | acc | segSeq | segAckn | segSrc | segDst
  deriving DecidableEq, Repr

/-- What the collaborators answer in a step (R22, R135). `rand` is the value of the random source, `none` where it does not
answer; `httpUp` says whether the HTTP generator answers (R147, U6; log entries 3 and 4). -/
structure Inputs where
  rand : Option Word
  httpUp : Bool
  deriving DecidableEq, Repr

/-- One action of the host between commands (R11, R59, R145). -/
inductive HostAction where
  /-- LOAD: a whole buffer at once (R13, R21). -/
  | load (buf : LoadBuf) (b : Bytes)
  /-- SET of a 16-bit register. -/
  | set16 (r : HalfReg) (v : Half)
  /-- SET of a 32-bit register. -/
  | set32 (r : WordReg) (v : Word)
  /-- COPY IBUF, OBUF: read `OBUF` and load the same bytes into `IBUF` (R59). This read is not recorded in `State.got`: a DESIGN
  CHOICE (log entry 6). -/
  | copy
  /-- A read of a register (R35). -/
  | read (r : Reg)
  /-- A write of `CMD` (R16), with what the collaborators answer in that step (R59 writes `RESPOND rand=...`). -/
  | command (code : Byte) (inputs : Inputs)
  /-- The platform's reset (R145). -/
  | reset
  deriving DecidableEq, Repr

/-- The state of one engine instance (R10, R11) with the parameters of its steps. -/
structure State where
  /-- `STATUS` (R17). -/
  status : Byte
  /-- `FLAGS`: bit 0 `SEGV`, bit 1 `CKOK`, bit 2 `REPLY` (R18). -/
  flags : Byte
  /-- `IBUF` (R13). -/
  ibuf : Bytes
  /-- `IN_SRC` (R13). -/
  inSrc : Word
  /-- `IN_DST` (R13). -/
  inDst : Word
  /-- `OBUF` (R14). -/
  obuf : Bytes
  /-- `ACC` (R15). -/
  acc : Word
  /-- `CKOUT` (R15). -/
  ckout : Half
  /-- `SEG` (R12): registers 11 to 24 of R11. -/
  seg : Segment
  /-- The configuration (R7), fixed (log entry 1). -/
  cfg : Config
  /-- The collaborators' answers in the present step (R22; log entries 3 and 4). -/
  inputs : Inputs
  /-- The host actions still to come, the next one first (R39 (d); log entry 5). -/
  program : List HostAction
  /-- What the host's latest `HostAction.read` answered (log entry 6). -/
  got : Option RegValue
  deriving DecidableEq, Repr

/-- What stops the machine. -/
inductive Fault where
  /-- RESPOND, PROCESS and RCLASS_SYN raise it on the SYN path when the random source does not answer: U6 calls that step
  stuck, it has no completion. Safe: nothing can be proved of what would follow. -/
  | randomSourceSilent
  /-- RESPOND, PROCESS and RCLASS_PSH raise it on the PSH path when the HTTP generator does not answer: U6 calls that step
  stuck. Safe: nothing can be proved of what would follow. -/
  | httpGeneratorSilent
  deriving DecidableEq, Repr

/-- What the model gives no meaning to. -/
inductive Refusal where
  /-- An instruction of the table without a meaning; no arm of `exec` raises it. Safe. -/
  | notModelled (mnemonic : String)
  deriving DecidableEq, Repr

/-- The segment of all zeros with no options and no payload (R23). -/
def Segment.zero : Segment :=
  { sport := 0, dport := 0, seq := 0, ackn := 0, ctrl := 0, win := 0, csum := 0, urgp := 0
    opt := [], pay := [], src := 0, dst := 0 }

/-- The state after reset (R11, R23, R145), in the default configuration (R7), with the collaborators connected (R147). -/
def State.reset : State :=
  { status := 0, flags := 0, ibuf := [], inSrc := 0, inDst := 0, obuf := [], acc := 0, ckout := 0, seg := Segment.zero
    cfg := Config.standard, inputs := { rand := some 0, httpUp := true }, program := [], got := none }

end Sys2Proof.Machine
end

