-- ==== Sys2Proof/Machine/Flags.lean ====
section
/-! DEFINITION. The bits of `FLAGS` (R18) and the codes of `STATUS` (R126). -/

namespace Sys2Proof.Machine

/-- The code of an outcome (R126). -/
def statusCode : Status → Byte
  | .ok => 0x00
  | .truncated => 0x01
  | .policyReject => 0x02
  | .unhandled => 0x03
  | .illegalCmd => 0x04
  | .noSegment => 0x05
  | .lengthOverflow => 0x06
  | .badChecksum => 0x07

/-- `f` with the bits of the mask set or cleared, the others kept. -/
def putFlag (mask : Byte) (v : Bool) (f : Byte) : Byte := if v then f ||| mask else f &&& ~~~mask

/-- Whether a bit of the mask is set. -/
def flagSet (mask f : Byte) : Bool := f &&& mask != 0

/-- Bit 0, `SEGV` (R18). -/
def segvMask : Byte := 0x01

/-- Bit 1, `CKOK` (R18). -/
def ckokMask : Byte := 0x02

/-- Bit 2, `REPLY` (R18). -/
def replyMask : Byte := 0x04

/-- `FLAGS.SEGV`: `SEG` holds a segment (R18). -/
def State.segv (s : State) : Bool := flagSet segvMask s.flags

/-- `FLAGS.CKOK`: the latest CKVERIFY passed (R18). -/
def State.ckok (s : State) : Bool := flagSet ckokMask s.flags

/-- `FLAGS.REPLY`: the latest RESPOND or PROCESS produced a segment (R18). -/
def State.reply (s : State) : Bool := flagSet replyMask s.flags

/-- `FLAGS.SEGV <- v`. -/
def State.setSegv (v : Bool) (s : State) : State := { s with flags := putFlag segvMask v s.flags }

/-- `FLAGS.CKOK <- v`. -/
def State.setCkok (v : Bool) (s : State) : State := { s with flags := putFlag ckokMask v s.flags }

/-- `FLAGS.REPLY <- v`. -/
def State.setReply (v : Bool) (s : State) : State := { s with flags := putFlag replyMask v s.flags }

/-- `STATUS <- st`. -/
def State.setStatus (st : Status) (s : State) : State := { s with status := statusCode st }

end Sys2Proof.Machine
end

