-- ==== Sys2Proof/Machine/Operands.lean ====
section
/-! DEFINITION. How bytes make numbers and numbers make bytes: the operand forms of R8, R30, R45 to R52, R65 and R68. -/

namespace Sys2Proof.Machine

/-- `B[o]` (R8). The rules read only indices inside the sequence. -/
def byteAt (B : Bytes) (o : Nat) : Byte := B.getD o 0

/-- `be16(B, o) = B[o]*256 + B[o+1]` (R8, R30). -/
def be16 (B : Bytes) (o : Nat) : Half := byteAt B o ++ byteAt B (o + 1)

/-- `be32(B, o)`, the first byte most significant (R8, R30). -/
def be32 (B : Bytes) (o : Nat) : Word := be16 B o ++ be16 B (o + 2)

/-- `enc16(v) = [v[15:8], v[7:0]]` (R8). -/
def enc16 (v : Half) : Bytes := [v.extractLsb' 8 8, v.extractLsb' 0 8]

/-- `enc32(v)`: the four bytes of `v`, the most significant first (R8). -/
def enc32 (v : Word) : Bytes := enc16 (v.extractLsb' 16 16) ++ enc16 (v.extractLsb' 0 16)

/-- `B[a..b)` (R8). -/
def slice (B : Bytes) (a b : Nat) : Bytes := (B.take b).drop a

/-- `FIXED_HDR`, the length of the fixed header (R6). -/
def fixedHdr : Nat := 20

/-- The largest length the 16-bit length field of the pseudo-header holds (R52, R89, R90). -/
def maxSegLen : Nat := 65535

/-- `OPT_CAP`, the capacity of `SEG.OPT` (R7, R21). -/
def optCap : Nat := 40

/-- `PAY_CAP`, the capacity of `SEG.PAY` (R7, R21). -/
def payCap (c : Config) : Nat := c.maxLen - fixedHdr

/-- `PROTO_ID` as the 16-bit word of the pseudo-header (R5, R52). -/
def protoWord : Half := 6

/-- `DOFF`, bits 15:12 of the control word (R47). -/
def doff (ctrl : Half) : Nat := (ctrl.extractLsb' 12 4).toNat

/-- `headerLenBytes(ctrl) = 4 * ctrl[15:12]` (R48): the masked form, which conflict C1 settles (log entry 11). -/
def headerLenBytes (ctrl : Half) : Nat := 4 * doff ctrl

/-- `ParseHeader(B)` (R65, R50), for a sequence of 20 bytes or more: bytes 0 to 19, verbatim. -/
def parseHeader (B : Bytes) : Header :=
  { sport := be16 B 0
    dport := be16 B 2
    seq := be32 B 4
    ackn := be32 B 8
    ctrl := be16 B 12
    win := be16 B 14
    csum := be16 B 16
    urgp := be16 B 18 }

/-- `HeaderBytes(s)`, the 20 bytes of the fixed header (R68). -/
def headerBytes (h : Header) : Bytes :=
  enc16 h.sport ++ enc16 h.dport ++ enc32 h.seq ++ enc32 h.ackn ++ enc16 h.ctrl ++ enc16 h.win ++ enc16 h.csum ++
    enc16 h.urgp

/-- The 12 bytes of a pseudo-header (R52): addresses, the protocol word 0x0006, the length. -/
def pseudoBytes (src dst : Word) (len : Half) : Bytes := enc32 src ++ enc32 dst ++ enc16 protoWord ++ enc16 len

/-- `HttpGen` (R108): the known answers of the configuration, and elsewhere the function nothing is known of (log entry 2). -/
def httpGen (c : Config) (request : Bytes) : Bytes := (c.httpKnown.lookup request).getD (Config.httpOpen request)

end Sys2Proof.Machine
end

