-- ==== Sys2Proof/Machine/Ops.lean ====
section
/-! DEFINITION. The named operations on the state: writes of the registers, how a command ends (`done` and `raise` of R8; there
is no trap entry, R130), the registers as the host reads them (R11), the four byte spaces (R36), reset (R145). -/

namespace Sys2Proof.Machine

/-- What a step answers. -/
abbrev Answer := Host.Outcome State Fault Refusal

/-- `SEG <- g`, all twelve fields. -/
def State.setSeg (g : Segment) (s : State) : State := { s with seg := g }

/-- `OBUF <- b`, and `OBUF_LEN` with it (R8). -/
def State.setObuf (b : Bytes) (s : State) : State := { s with obuf := b }

/-- `IBUF <- b`, and `IBUF_LEN` with it (R8). -/
def State.setIbuf (b : Bytes) (s : State) : State := { s with ibuf := b }

/-- `ACC <- v`. Every value a command writes is below 2^32 (R15, R91), so nothing is cut. -/
def State.setAcc (v : Nat) (s : State) : State := { s with acc := BitVec.ofNat 32 v }

/-- `CKOUT <- v`. -/
def State.setCkout (v : Half) (s : State) : State := { s with ckout := v }

/-- What the collaborators answer in the step that begins (R22). -/
def State.setInputs (a : Inputs) (s : State) : State := { s with inputs := a }

/-- The host actions still to come. -/
def State.setProgram (p : List HostAction) (s : State) : State := { s with program := p }

/-- What the host has read. -/
def State.setGot (v : Option RegValue) (s : State) : State := { s with got := v }

/-- `raise st` (R8), and `done` with `st = ok`: the command ends with its outcome in `STATUS`; nothing is saved, no mode
changes, control goes nowhere (R130). The changes a failing command makes besides are those of R128 and stand in `s`. -/
def endWith (st : Status) (s : State) : Answer := .next (s.setStatus st)

/-- The next stage of PROCESS on the state a stage left; what stops a stage stops the command (R111). -/
def andThen (a : Answer) (f : State → Answer) : Answer :=
  match a with
  | .next s => f s
  | .fault r => .fault r
  | .refused r => .refused r

/-- Whether the latest stage ended `OK`. -/
def State.endedOk (s : State) : Bool := s.status == statusCode .ok

/-- `20 + |opt| + |pay|`, the wire length of a segment (R57, R69). -/
def wireLen (g : Segment) : Nat := fixedHdr + g.opt.length + g.pay.length

/-- Every register at its reset value (R11, R23, R145); the configuration is no register and stays (R147), and so do the
inputs, the host's remaining actions and what it has read. -/
def State.clearRegs (s : State) : State :=
  { State.reset with cfg := s.cfg, inputs := s.inputs, program := s.program, got := s.got }

/-- The four byte spaces of R36. -/
inductive Space where
  | ibuf
  | obuf
  | opt
  | pay
  deriving DecidableEq, Repr

/-- The contents of a space. -/
def State.space (s : State) : Space → Bytes
  | .ibuf => s.ibuf
  | .obuf => s.obuf
  | .opt => s.seg.opt
  | .pay => s.seg.pay

/-- The capacity of a space (R36). -/
def capacity (c : Config) : Space → Nat
  | .ibuf => c.maxLen
  | .obuf => c.maxLen
  | .opt => optCap
  | .pay => payCap c

/-- The byte at an index of a space; an index at or past its length does not exist. -/
def State.readByte (s : State) (sp : Space) (i : Nat) : Option Byte := (s.space sp)[i]?

/-- Every space holds at most its capacity (R21, R36). A byte sequence has one form only, so this is all that the canonical
form of this memory asks (log entry 13). -/
abbrev Memory.wf (s : State) : Prop :=
  s.ibuf.length ≤ capacity s.cfg .ibuf ∧ s.obuf.length ≤ capacity s.cfg .obuf ∧
    s.seg.opt.length ≤ capacity s.cfg .opt ∧ s.seg.pay.length ≤ capacity s.cfg .pay

/-- The number of a register (R11). -/
def regNumber : Reg → Nat
  | .cmd => 0
  | .status => 1
  | .flags => 2
  | .ibuf => 3
  | .ibufLen => 4
  | .inSrc => 5
  | .inDst => 6
  | .obuf => 7
  | .obufLen => 8
  | .acc => 9
  | .ckout => 10
  | .segSport => 11
  | .segDport => 12
  | .segSeq => 13
  | .segAckn => 14
  | .segCtrl => 15
  | .segWin => 16
  | .segCsum => 17
  | .segUrgp => 18
  | .segSrc => 19
  | .segDst => 20
  | .segOpt => 21
  | .optLen => 22
  | .segPay => 23
  | .payLen => 24

/-- A register as the host reads it (R11). `CMD` keeps no value and a read of it is refused: `none` (R16). The length
registers are views of their buffers. -/
def State.view (s : State) : Reg → Option RegValue
  | .cmd => none
  | .status => some (.num (s.status.setWidth 32))
  | .flags => some (.num (s.flags.setWidth 32))
  | .ibuf => some (.seq s.ibuf)
  | .ibufLen => some (.num (BitVec.ofNat 32 s.ibuf.length))
  | .inSrc => some (.num s.inSrc)
  | .inDst => some (.num s.inDst)
  | .obuf => some (.seq s.obuf)
  | .obufLen => some (.num (BitVec.ofNat 32 s.obuf.length))
  | .acc => some (.num s.acc)
  | .ckout => some (.num (s.ckout.setWidth 32))
  | .segSport => some (.num (s.seg.sport.setWidth 32))
  | .segDport => some (.num (s.seg.dport.setWidth 32))
  | .segSeq => some (.num s.seg.seq)
  | .segAckn => some (.num s.seg.ackn)
  | .segCtrl => some (.num (s.seg.ctrl.setWidth 32))
  | .segWin => some (.num (s.seg.win.setWidth 32))
  | .segCsum => some (.num (s.seg.csum.setWidth 32))
  | .segUrgp => some (.num (s.seg.urgp.setWidth 32))
  | .segSrc => some (.num s.seg.src)
  | .segDst => some (.num s.seg.dst)
  | .segOpt => some (.seq s.seg.opt)
  | .optLen => some (.num (BitVec.ofNat 32 s.seg.opt.length))
  | .segPay => some (.seq s.seg.pay)
  | .payLen => some (.num (BitVec.ofNat 32 s.seg.pay.length))

end Sys2Proof.Machine
end

