-- ==== Sys2Proof/Machine/Checksum.lean ====
section
/-! DEFINITION. The checksum engine: SUM, COMPILE, CKGEN, CKVERIFY (R80 to R93) and the PSEUDO_HEADER row (R52). -/

namespace Sys2Proof.Machine

/-- The words of a range, added up (R80): an odd last byte is the high byte of a word whose low byte is zero. -/
def sumWords : Bytes → Nat
  | [] => 0
  | [a] => a.toNat * 256
  | a :: b :: rest => a.toNat * 256 + b.toNat + sumWords rest

/-- `Sum(B)` (R80): the exact sum of the big-endian 16-bit words of the range; no carry is folded. (Irreducible, so that no
proof unfolds it by accident; the kernel evaluates it all the same.) -/
@[irreducible] def sum (B : Bytes) : Nat := sumWords B

/-- `n` passes at most of the loop of `Fold` (R81). -/
def foldPasses : Nat → Nat → Nat
  | 0, v => v
  | n + 1, v => if v > 0xFFFF then foldPasses n (v % 0x10000 + v / 0x10000) else v

/-- `Fold(v)` (R81). Each pass makes a value above 0xFFFF smaller, so `v` passes are enough.
(Irreducible, as `sum` is.) -/
@[irreducible] def fold (v : Nat) : Nat := foldPasses v v

/-- `Compile(v)`, the complement of the folded sum (R82). -/
def compile (v : Nat) : Half := BitVec.ofNat 16 (0xFFFF - fold v)

/-- `PseudoHeader(s)` (R83), for a segment of at most 65535 bytes; its length field is the wire length. For a longer one the
spec defines none: no command shows the value taken here (log entry 12). -/
def pseudoHeader (g : Segment) : Bytes := pseudoBytes g.src g.dst (BitVec.ofNat 16 (wireLen g))

/-- `SegSum(s)` (R84): one range, pseudo-header, header, options, payload (conflict C2). (Irreducible, as `sum` is.) -/
@[irreducible] def segSum (g : Segment) : Nat := sum (pseudoHeader g ++ headerBytes g.toHeader ++ g.opt ++ g.pay)

/-- The segment with another checksum field. -/
def withCsum (g : Segment) (v : Half) : Segment := { g with csum := v }

/-- `SegSum0(s) = SegSum(s with {csum = 0})` (R84). -/
def segSum0 (g : Segment) : Nat := segSum (withCsum g 0)

/-- `CkGen(s)` (R85). -/
def ckGen (g : Segment) : Segment := withCsum g (compile (segSum0 g))

/-- `CkValid(s)` (R86). -/
def ckValid (g : Segment) : Bool := compile (segSum g) == 0

/-- SUM (R87): `ACC <- Sum(IBUF)`; the old `ACC` has no part. -/
def execSum (s : State) : Answer := endWith .ok (s.setAcc (sum s.ibuf))

/-- COMPILE (R88): `CKOUT <- Compile(ACC)`. -/
def execCompile (s : State) : Answer := endWith .ok (s.setCkout (compile s.acc.toNat))

/-- CKGEN (R89). -/
def execCkgen (s : State) : Answer :=
  if s.segv = false then endWith .noSegment s
  else if wireLen s.seg > maxSegLen then endWith .lengthOverflow s
  else
    let v := segSum0 s.seg
    endWith .ok (((s.setAcc v).setCkout (compile v)).setSeg (withCsum s.seg (compile v)))

/-- CKVERIFY (R90). -/
def execCkverify (s : State) : Answer :=
  if s.segv = false then endWith .noSegment (s.setCkok false)
  else if wireLen s.seg > maxSegLen then endWith .lengthOverflow (s.setCkok false)
  else
    let v := segSum s.seg
    let s' := (s.setAcc v).setCkout (compile v)
    if compile v = 0 then endWith .ok (s'.setCkok true) else endWith .badChecksum (s'.setCkok false)

/-- The PSEUDO_HEADER row (R52), a record and not a command: it is "summed into a checksum", so its meaning is SUM on its own
12 bytes (log entry 10). -/
def execPseudoHeader (src dst : Word) (len : Half) (s : State) : Answer :=
  endWith .ok (s.setAcc (sum (pseudoBytes src dst len)))

end Sys2Proof.Machine
end

