-- ==== Sys2Proof/Machine/Codec.lean ====
section
/-! DEFINITION. The segment codec: DECODE, ENCODE, MKSEG (R65 to R72) and the TCP_HEADER row (R45). -/

namespace Sys2Proof.Machine

/-- The rest of `Decode` (R66) once the header is parsed: the header length must lie between 20 and the length of the buffer;
then the options and the payload are cut and the addresses attached. `none` is the failure `Truncated`. -/
def cutSegment (h : Header) (B : Bytes) (src dst : Word) : Option Segment :=
  if headerLenBytes h.ctrl < fixedHdr then none
  else if headerLenBytes h.ctrl > B.length then none
  else some
    { toHeader := h
      opt := slice B fixedHdr (headerLenBytes h.ctrl)
      pay := slice B (headerLenBytes h.ctrl) B.length
      src := src
      dst := dst }

/-- `Decode(B, srcAddr, dstAddr)` (R66). -/
def decodeSeg (B : Bytes) (src dst : Word) : Option Segment :=
  if B.length < fixedHdr then none else cutSegment (parseHeader B) B src dst

/-- `Encode(s)` (R69). -/
def encodeSeg (g : Segment) : Bytes := headerBytes g.toHeader ++ g.opt ++ g.pay

/-- What DECODE does with the result of `Decode` (R67). -/
def takeDecoded (r : Option Segment) (s : State) : State :=
  match r with
  | none => (s.setSegv false).setStatus .truncated
  | some g => ((s.setSeg g).setSegv true).setStatus .ok

/-- The stage DECODE, of the command (R67) and of PROCESS (R111). -/
def decodeStage (s : State) : State := takeDecoded (decodeSeg s.ibuf s.inSrc s.inDst) s

/-- The stage ENCODE, of the command (R70) and of PROCESS (R111). -/
def encodeStage (s : State) : State :=
  if s.segv = false then s.setStatus .noSegment
  else if wireLen s.seg > s.cfg.maxLen then s.setStatus .lengthOverflow
  else (s.setObuf (encodeSeg s.seg)).setStatus .ok

/-- DECODE (R67). -/
def execDecode (s : State) : Answer := .next (decodeStage s)

/-- ENCODE (R70). -/
def execEncode (s : State) : Answer := .next (encodeStage s)

/-- MKSEG (R71). -/
def execMkseg (s : State) : Answer := endWith .ok (s.setSegv true)

/-- The TCP_HEADER row (R45), a record and not a command: its meaning is what DECODE does when the header it parses from
`IBUF` is this one (log entry 9). -/
def execTcpHeader (h : Header) (s : State) : Answer :=
  .next (takeDecoded (if s.ibuf.length < fixedHdr then none else cutSegment h s.ibuf s.inSrc s.inDst) s)

end Sys2Proof.Machine
end

