-- ==== Sys2Proof/Machine/Control.lean ====
section
/-! DEFINITION. CLEAR (R112) and the illegal codes (R54). -/

namespace Sys2Proof.Machine

/-- CLEAR (R112): every register at its reset value, `STATUS <- OK`. -/
def execClear (s : State) : Answer := endWith .ok s.clearRegs

/-- A code that selects no command (R54): `STATUS <- ILLEGAL_CMD` and nothing else. The code is not recorded (R126). -/
def execIllegal (_code : Byte) (s : State) : Answer := endWith .illegalCmd s

end Sys2Proof.Machine
end

