-- ==== Sys2Proof/Syntax.lean ====
section
/-! DEFINITION. One constructor for each row of spec/opcode_table.json. -/

namespace Sys2Proof

/-- What the engine can be given to decode. The first eleven are the commands of R53 and R54; the last six are the rows of
the table that are not commands: the four reply classes of R58 and the two record formats of R45 and R52. -/
inductive Instr where
  /-- DECODE, code 0x01 (R67). -/
  | decode
  /-- ENCODE, code 0x02 (R70). -/
  | encode
  /-- SUM, code 0x03 (R87). -/
  | sum
  /-- COMPILE, code 0x04 (R88). -/
  | compile
  /-- CKGEN, code 0x05 (R89). -/
  | ckgen
  /-- CKVERIFY, code 0x06 (R90). -/
  | ckverify
  /-- RESPOND, code 0x07 (R110). -/
  | respond
  /-- PROCESS, code 0x08 (R111). -/
  | process
  /-- MKSEG, code 0x09 (R71). -/
  | mkseg
  /-- CLEAR, code 0x0A (R112). -/
  | clear
  /-- Every other code: 0x00 and 0x0B to 0xFF (R54). -/
  | illegal (code : Byte)
  /-- Reply class UNSERVED (R58, R102): a key whose port is not 80. -/
  | rclassUnserved (dport ctrl : Half)
  /-- Reply class SYN (R58, R103): port 80, SYN set. -/
  | rclassSyn (ctrl : Half)
  /-- Reply class PSH (R58, R104): port 80, SYN clear, PSH set. -/
  | rclassPsh (ctrl : Half)
  /-- Reply class OTHER (R58, R105): port 80, SYN and PSH clear. -/
  | rclassOther (ctrl : Half)
  /-- The fixed header, 20 bytes (R45). -/
  | tcpHeader (h : Header)
  /-- The pseudo-header, 12 bytes (R52): source, destination, length; its protocol word is always 6. -/
  | pseudoHeader (src dst : Word) (len : Half)
  deriving DecidableEq, Repr

end Sys2Proof
end

