-- ==== Sys2Proof/WellFormed.lean ====
section
/-! DEFINITION. Which terms of `Instr` some bits stand for. -/

namespace Sys2Proof

/-- A code that selects no command (R54). -/
abbrev illegalCode (c : Byte) : Prop := c = 0 ∨ 0x0B ≤ c.toNat

/-- The SYN flag of a control word is set: `ctrl & mask != 0` (R5, R47). -/
abbrev synSet (ctrl : Half) : Prop := ctrl &&& 0x0002 ≠ 0

/-- The PSH flag of a control word is set (R5, R47). -/
abbrev pshSet (ctrl : Half) : Prop := ctrl &&& 0x0008 ≠ 0

/-- The instruction is one that an encoding exists for: an illegal code is none of the ten commands' (R53, R54), and a
reply class carries a key that its row of R58 matches. Every header and every pseudo-header has an encoding (R45, R52). -/
def Instr.wf : Instr → Bool
  | .decode => true
  | .encode => true
  | .sum => true
  | .compile => true
  | .ckgen => true
  | .ckverify => true
  | .respond => true
  | .process => true
  | .mkseg => true
  | .clear => true
  | .illegal c => decide (illegalCode c)
  | .rclassUnserved p _ => decide (p ≠ 80)
  | .rclassSyn k => decide (synSet k)
  | .rclassPsh k => decide (¬ synSet k ∧ pshSet k)
  | .rclassOther k => decide (¬ synSet k ∧ ¬ pshSet k)
  | .tcpHeader _ => true
  | .pseudoHeader _ _ _ => true

end Sys2Proof
end

