-- ==== Sys2Proof/Decode.lean ====
section
/-! DEFINITION. From bits to instructions and back: the command codes of R53 and R54, the reply-class key of R58, the header
of R45 and the pseudo-header of R52. The bits say nothing of which of the four formats they are in: that is known from where
they stand (`CMD`, the key of the segment in `SEG`, the head of `IBUF`, the checksum engine's own record). -/

namespace Sys2Proof

/-- The four formats of spec/opcode_table.json. -/
inductive Format where
  /-- CMD8: a code written to `CMD` (R53). -/
  | cmd8
  /-- RKEY32: the reply-class key `K` (R58). -/
  | rkey32
  /-- PSH96: the pseudo-header (R52). -/
  | psh96
  /-- HDR160: the fixed header (R45). -/
  | hdr160
  deriving DecidableEq, Repr

/-- Why bytes are not an instruction of a format. -/
inductive DecodeError where
  /-- The number of bytes is not the format's. -/
  | wrongLength
  /-- The protocol word of a pseudo-header is not 0x0006 (R52). -/
  | protocolNotSix
  deriving DecidableEq, Repr

/-- The four reply classes (R58). -/
inductive ReplyClass where
  /-- The destination port is not 80 (R102). -/
  | unserved
  /-- Port 80 and SYN set (R103). -/
  | syn
  /-- Port 80, SYN clear, PSH set (R104). -/
  | psh
  /-- Port 80, SYN and PSH clear (R105). -/
  | other
  deriving DecidableEq, Repr

/-- The command a code selects (R53); every other code is illegal (R54). -/
def decodeCmd (code : Byte) : Instr :=
  match code.toNat with
  | 0x01 => .decode
  | 0x02 => .encode
  | 0x03 => .sum
  | 0x04 => .compile
  | 0x05 => .ckgen
  | 0x06 => .ckverify
  | 0x07 => .respond
  | 0x08 => .process
  | 0x09 => .mkseg
  | 0x0A => .clear
  | _ => .illegal code

/-- The key `K = dport * 2^16 + ctrl` (R58). -/
def replyKey (dport ctrl : Half) : Word := dport ++ ctrl

/-- The class of a key: the first row of R58 that matches, by the match and mask of its row. -/
def classify (k : Word) : ReplyClass :=
  if k &&& 0xFFFF0000 ≠ 0x00500000 then .unserved
  else if k &&& 0xFFFF0002 = 0x00500002 then .syn
  else if k &&& 0xFFFF000A = 0x00500008 then .psh
  else .other

/-- The reply-class row a key matches (R58), with the bits of the key the row leaves free. -/
def decodeKey (k : Word) : Instr :=
  match classify k with
  | .unserved => .rclassUnserved (k.extractLsb' 16 16) (k.extractLsb' 0 16)
  | .syn => .rclassSyn (k.extractLsb' 0 16)
  | .psh => .rclassPsh (k.extractLsb' 0 16)
  | .other => .rclassOther (k.extractLsb' 0 16)

/-- The instruction that bytes in a given format stand for, or why they stand for none. Total. -/
def decode (f : Format) (B : Bytes) : Except DecodeError Instr :=
  match f with
  | .cmd8 => if B.length = 1 then .ok (decodeCmd (Machine.byteAt B 0)) else .error .wrongLength
  | .rkey32 => if B.length = 4 then .ok (decodeKey (Machine.be32 B 0)) else .error .wrongLength
  | .psh96 =>
    if B.length = 12 then
      if Machine.be16 B 8 = Machine.protoWord then
        .ok (.pseudoHeader (Machine.be32 B 0) (Machine.be32 B 4) (Machine.be16 B 10))
      else .error .protocolNotSix
    else .error .wrongLength
  | .hdr160 => if B.length = 20 then .ok (.tcpHeader (Machine.parseHeader B)) else .error .wrongLength

/-- The format an instruction is written in. -/
def Instr.format : Instr → Format
  | .decode => .cmd8
  | .encode => .cmd8
  | .sum => .cmd8
  | .compile => .cmd8
  | .ckgen => .cmd8
  | .ckverify => .cmd8
  | .respond => .cmd8
  | .process => .cmd8
  | .mkseg => .cmd8
  | .clear => .cmd8
  | .illegal _ => .cmd8
  | .rclassUnserved _ _ => .rkey32
  | .rclassSyn _ => .rkey32
  | .rclassPsh _ => .rkey32
  | .rclassOther _ => .rkey32
  | .tcpHeader _ => .hdr160
  | .pseudoHeader _ _ _ => .psh96

/-- The bytes of an instruction (R53, R54, R58, R68, R52). -/
def encode : Instr → Bytes
  | .decode => [0x01]
  | .encode => [0x02]
  | .sum => [0x03]
  | .compile => [0x04]
  | .ckgen => [0x05]
  | .ckverify => [0x06]
  | .respond => [0x07]
  | .process => [0x08]
  | .mkseg => [0x09]
  | .clear => [0x0A]
  | .illegal c => [c]
  | .rclassUnserved p k => Machine.enc16 p ++ Machine.enc16 k
  | .rclassSyn k => Machine.enc16 80 ++ Machine.enc16 k
  | .rclassPsh k => Machine.enc16 80 ++ Machine.enc16 k
  | .rclassOther k => Machine.enc16 80 ++ Machine.enc16 k
  | .tcpHeader h => Machine.headerBytes h
  | .pseudoHeader a b n => Machine.pseudoBytes a b n

/-- How many bytes each format has. -/
def Format.bytes : Format → Nat
  | .cmd8 => 1
  | .rkey32 => 4
  | .psh96 => 12
  | .hdr160 => 20

/-- The shortest format that holds `nbits` bits (log entry 16). -/
def formatOfBits (nbits : Nat) : Option Format :=
  if nbits ≤ 8 then some .cmd8
  else if nbits ≤ 32 then some .rkey32
  else if nbits ≤ 96 then some .psh96
  else if nbits ≤ 160 then some .hdr160
  else none

/-- The `n` bytes of `w`, the most significant first: bit `8n-1` of the table's numbering is first on the wire (R45). -/
def beBytes (n w : Nat) : Bytes :=
  match n with
  | 0 => []
  | k + 1 => BitVec.ofNat 8 (w >>> (8 * k)) :: beBytes k w

/-- The bytes of a table word in the format of its length. -/
def tableBytes (f : Format) (nbits w : Nat) : Bytes := beBytes f.bytes (w % 2 ^ nbits)

/-- The instruction whose bits are `w`, numbered as spec/opcode_table.json numbers them; bits from `nbits` on are zero. -/
def decodeTableWord (nbits w : Nat) : Option Instr :=
  match formatOfBits nbits with
  | none => none
  | some f =>
    match decode f (tableBytes f nbits w) with
    | .ok i => some i
    | .error _ => none

end Sys2Proof
end

