-- ==== Sys2Proof/Machine/Synth.lean ====
section
/-! DEFINITION. The response synthesizer: RESPOND, PROCESS (R100 to R113) and the four reply-class rows (R58). -/

namespace Sys2Proof.Machine

/-- `SYN | ACK` (R103). -/
def synAck : Half := 0x0012

/-- `ACK | FIN` (R104). -/
def ackFin : Half := 0x0011

/-- The control word of a reply (R109): the header length that its options need, bits 11:5 zero, the flags. -/
def replyCtrl (opt : Bytes) (flags : Half) : Half := BitVec.ofNat 16 ((fixedHdr + opt.length) / 4 * 4096) ||| flags

/-- A reply with the fields common to both kinds (R109); the checksum comes last, over all the others. -/
def mkReply (c : Config) (inb : Segment) (seq ackn : Word) (opt pay : Bytes) (flags : Half) : Segment :=
  ckGen
    { sport := inb.dport
      dport := inb.sport
      seq := seq
      ackn := ackn
      ctrl := replyCtrl opt flags
      win := c.replyWindow
      csum := 0
      urgp := 0
      opt := opt
      pay := pay
      src := inb.dst
      dst := inb.src }

/-- `SynReply(in, rand32)` (R103); the sequence arithmetic wraps (R107). -/
def synReply (c : Config) (inb : Segment) (rand : Word) : Segment :=
  mkReply c inb rand (inb.seq + 1) inb.opt [] synAck

/-- `PshReply(in, HttpGen)` (R104); the sequence arithmetic wraps (R107). -/
def pshReply (c : Config) (inb : Segment) (gen : Bytes → Bytes) : Segment :=
  mkReply c inb inb.ackn (inb.seq + BitVec.ofNat 32 inb.pay.length) [] (gen inb.pay) ackFin

/-- `Respond(in, rand32, HttpGen)` (R100, R101): the items of the policy in order. -/
def respondPolicy (c : Config) (inb : Segment) (rand : Word) (gen : Bytes → Bytes) : List Segment :=
  if inb.dport ≠ 80 then []
  else if inb.ctrl &&& 0x0002 ≠ 0 then [synReply c inb rand]
  else if inb.ctrl &&& 0x0008 ≠ 0 then [pshReply c inb gen]
  else []

/-- No reply (R110): `SEGV` and `REPLY` cleared, the fields of `SEG` kept. -/
def noReply (st : Status) (s : State) : Answer := endWith st ((s.setSegv false).setReply false)

/-- A reply (R110): it replaces the inbound segment unless it is too long for the buffer. -/
def giveReply (out : Segment) (s : State) : Answer :=
  if wireLen out > s.cfg.maxLen then noReply .lengthOverflow s
  else
    endWith .ok
      (((((s.setAcc (segSum0 out)).setCkout (compile (segSum0 out))).setSeg out).setSegv true).setReply true)

/-- RESPOND without a segment (R110). -/
def noSegmentReply (s : State) : Answer := endWith .noSegment (s.setReply false)

/-- Class SYN on the segment in `SEG` (R103, R110). A random source that does not answer leaves the step stuck (U6). -/
def synStage (s : State) : Answer :=
  match s.inputs.rand with
  | some r => giveReply (synReply s.cfg s.seg r) s
  | none => .fault .randomSourceSilent

/-- Class PSH on the segment in `SEG` (R104, R108, R110). A generator that does not answer leaves the step stuck (U6). -/
def pshStage (s : State) : Answer :=
  if s.inputs.httpUp then giveReply (pshReply s.cfg s.seg (httpGen s.cfg)) s else .fault .httpGeneratorSilent

/-- What a class does to the segment in `SEG` (R58, R102 to R105). -/
def classStage (k : ReplyClass) (s : State) : Answer :=
  match k with
  | .unserved => noReply .policyReject s
  | .syn => synStage s
  | .psh => pshStage s
  | .other => noReply .unhandled s

/-- The stage RESPOND, of the command (R110) and of PROCESS (R111). -/
def respondStage (s : State) : Answer :=
  if s.segv = false then noSegmentReply s
  else classStage (classify (replyKey s.seg.dport s.seg.ctrl)) s

/-- RESPOND (R110). -/
def execRespond (s : State) : Answer := respondStage s

/-- PROCESS (R111): decode, respond, encode; a stage that does not end `OK` is the last, and leaves `OBUF` empty. -/
def execProcess (s : State) : Answer :=
  let s1 := decodeStage s
  if s1.endedOk = false then .next ((s1.setObuf []).setReply false)
  else
    andThen (respondStage s1) fun s2 =>
      if s2.endedOk = false then .next (s2.setObuf []) else .next (encodeStage s2)

/-- The row RCLASS_UNSERVED (R102): what RESPOND does when the key matches it (log entry 8). Nothing more of the key is used. -/
def execRclassUnserved (_dport _ctrl : Half) (s : State) : Answer :=
  if s.segv = false then noSegmentReply s else classStage .unserved s

/-- The row RCLASS_SYN (R103): what RESPOND does when the key matches it (log entry 8). -/
def execRclassSyn (_ctrl : Half) (s : State) : Answer :=
  if s.segv = false then noSegmentReply s else classStage .syn s

/-- The row RCLASS_PSH (R104): what RESPOND does when the key matches it (log entry 8). -/
def execRclassPsh (_ctrl : Half) (s : State) : Answer :=
  if s.segv = false then noSegmentReply s else classStage .psh s

/-- The row RCLASS_OTHER (R105): what RESPOND does when the key matches it (log entry 8). -/
def execRclassOther (_ctrl : Half) (s : State) : Answer :=
  if s.segv = false then noSegmentReply s else classStage .other s

end Sys2Proof.Machine
end

