-- ==== Sys2Proof/Machine/Dispatch.lean ====
section
/-! DEFINITION. One arm per constructor of `Instr`, each one call of its meaning. -/

namespace Sys2Proof.Machine

def exec (i : Instr) (s : State) : Host.Outcome State Fault Refusal :=
  match i with
  | .decode => Sys2Proof.Machine.execDecode s
  | .encode => Sys2Proof.Machine.execEncode s
  | .sum => Sys2Proof.Machine.execSum s
  | .compile => Sys2Proof.Machine.execCompile s
  | .ckgen => Sys2Proof.Machine.execCkgen s
  | .ckverify => Sys2Proof.Machine.execCkverify s
  | .respond => Sys2Proof.Machine.execRespond s
  | .process => Sys2Proof.Machine.execProcess s
  | .mkseg => Sys2Proof.Machine.execMkseg s
  | .clear => Sys2Proof.Machine.execClear s
  | .illegal code => Sys2Proof.Machine.execIllegal code s
  | .rclassUnserved dport ctrl => Sys2Proof.Machine.execRclassUnserved dport ctrl s
  | .rclassSyn ctrl => Sys2Proof.Machine.execRclassSyn ctrl s
  | .rclassPsh ctrl => Sys2Proof.Machine.execRclassPsh ctrl s
  | .rclassOther ctrl => Sys2Proof.Machine.execRclassOther ctrl s
  | .tcpHeader h => Sys2Proof.Machine.execTcpHeader h s
  | .pseudoHeader src dst len => Sys2Proof.Machine.execPseudoHeader src dst len s

end Sys2Proof.Machine
end

