-- ==== Sys2Proof/Machine/HostPort.lean ====
section
/-! DEFINITION. The host's side: the actions of R11's host column and R59, and how a command comes to the engine (R16, R39). -/

namespace Sys2Proof.Machine

/-- A load of a whole buffer (R13, R21). One that the buffer cannot hold is refused and changes nothing (log entry 14). The
flag `SEGV` does not change (R18). -/
def loadBuf (buf : LoadBuf) (b : Bytes) (s : State) : State :=
  match buf with
  | .ibuf => if b.length ≤ capacity s.cfg .ibuf then s.setIbuf b else s
  | .segOpt => if b.length ≤ capacity s.cfg .opt then s.setSeg { s.seg with opt := b } else s
  | .segPay => if b.length ≤ capacity s.cfg .pay then s.setSeg { s.seg with pay := b } else s

/-- A write of a 16-bit register; `SEGV` does not change (R18, R21). -/
def writeHalf (r : HalfReg) (v : Half) (s : State) : State :=
  match r with
  | .segSport => s.setSeg { s.seg with sport := v }
  | .segDport => s.setSeg { s.seg with dport := v }
  | .segCtrl => s.setSeg { s.seg with ctrl := v }
  | .segWin => s.setSeg { s.seg with win := v }
  | .segCsum => s.setSeg { s.seg with csum := v }
  | .segUrgp => s.setSeg { s.seg with urgp := v }

/-- A write of a 32-bit register; `SEGV` does not change (R15, R18, R21). -/
def writeWord (r : WordReg) (v : Word) (s : State) : State :=
  match r with
  | .inSrc => { s with inSrc := v }
  | .inDst => { s with inDst := v }
  | .acc => s.setAcc v.toNat
  | .segSeq => s.setSeg { s.seg with seq := v }
  | .segAckn => s.setSeg { s.seg with ackn := v }
  | .segSrc => s.setSeg { s.seg with src := v }
  | .segDst => s.setSeg { s.seg with dst := v }

/-- What a host action other than a command does. A read only tells the host the value (R35). COPY loads the bytes of `OBUF`
into `IBUF` (R59); that its own read of `OBUF` is not recorded in `got` is a DESIGN CHOICE of the model (log entry 6). Reset
puts every register at its reset value (R145, log entry 15). -/
def hostAct (a : HostAction) (s : State) : State :=
  match a with
  | .load buf b => loadBuf buf b s
  | .set16 r v => writeHalf r v s
  | .set32 r v => writeWord r v s
  | .copy => loadBuf .ibuf s.obuf s
  | .read r => s.setGot (s.view r)
  | .command _ _ => s
  | .reset => s.clearRegs

/-- The command the host writes next, if a command is next, and the state it runs in: the action is taken from the host's
list and the collaborators' answers of this step are there (R16, R22, R39). -/
def fetch (s : State) : Option (Instr × State) :=
  match s.program with
  | .command code a :: rest => some (decodeCmd code, (s.setProgram rest).setInputs a)
  | _ => none

/-- The step when no command is next: the host's next action, or nothing when it has none (the engine is idle, R137). -/
def hostStep (s : State) : State :=
  match s.program with
  | [] => s
  | a :: rest => hostAct a (s.setProgram rest)

/-- The host writes `code` to `CMD` next; the collaborators answer as `s` says. -/
def nextCommand (code : Byte) (s : State) : State := s.setProgram (.command code s.inputs :: s.program)

/-- The segment in `SEG` gets the port and control word of a key, and is declared a segment. -/
def placeKey (k : Word) (s : State) : State :=
  (s.setSeg { s.seg with dport := k.extractLsb' 16 16, ctrl := k.extractLsb' 0 16 }).setSegv true

/-- `s` with bytes of a format where the engine takes that format from (log entries 5, 8, 9, 10 and 16): a code is written to
`CMD`; a key is the port and control word of `SEG`, which RESPOND reads; a header is `IBUF`, which DECODE parses; a
pseudo-header is `IBUF`, which SUM sums. -/
def placeBytes (f : Format) (B : Bytes) (s : State) : State :=
  match f with
  | .cmd8 => nextCommand (byteAt B 0) s
  | .rkey32 => nextCommand 0x07 (placeKey (be32 B 0) s)
  | .psh96 => nextCommand 0x03 (s.setIbuf B)
  | .hdr160 => nextCommand 0x01 (s.setIbuf B)

end Sys2Proof.Machine
end

