-- ==== Sys2Proof/Machine/Step.lean ====
section
/-! DEFINITION. One step: the host's next action, a command being one atomic step (R39). -/

namespace Sys2Proof.Machine

/-- One step (R39): a command the host writes runs to its end; any other host action takes effect; with none left the engine
is idle. -/
def step (s : State) : Host.Outcome State Fault Refusal :=
  match fetch s with
  | some (i, s') => exec i s'
  | none => .next (hostStep s)

/-- `s` with the instruction of a table word where the next step takes it from (log entry 16). -/
def State.withFetchWord (s : State) (nbits w : Nat) : State :=
  match formatOfBits nbits with
  | some f => placeBytes f (tableBytes f nbits w) s
  | none => s

end Sys2Proof.Machine
end

