-- ==== Sys2Proof/Safety.lean ====
section
/-! DEFINITION. What holds of every state of a run, and what a step must never do. -/

namespace Sys2Proof.Machine

/-- The reserved bits 7:3 of `FLAGS` read as zero (R18). -/
abbrev FlagsReserved (s : State) : Prop := s.flags &&& 0xF8 = 0

/-- `STATUS` holds one of the codes of R126 ("Codes 0x08 to 0xFF are never written to STATUS"). -/
abbrev StatusKnown (s : State) : Prop := s.status.toNat ≤ 7

/-- The invariant of a run: a legal configuration (R7), buffers within their capacities (R21, R36), reserved flag bits zero
(R18), a known outcome code (R126). -/
abbrev State.Inv (s : State) : Prop := s.cfg.Legal ∧ Memory.wf s ∧ FlagsReserved s ∧ StatusKnown s

/-- The collaborators answer (R147: "the collaborators must be connected"). -/
abbrev State.Connected (s : State) : Prop := s.inputs.rand.isSome = true ∧ s.inputs.httpUp = true

/-- Where an answer to a segment asks a collaborator that does not give one (U6): the random source on the SYN path (R103,
R106), the HTTP generator on the PSH path (R104, R108). -/
def Unanswered (a : Inputs) (g : Segment) : Fault → Prop
  | .randomSourceSilent => g.dport = 80 ∧ g.ctrl.getLsbD 1 = true ∧ a.rand = none
  | .httpGeneratorSilent => g.dport = 80 ∧ g.ctrl.getLsbD 1 = false ∧ g.ctrl.getLsbD 3 = true ∧ a.httpUp = false

/-- The host reads a register as a number (R11). -/
abbrev State.Reads (s : State) (r : Reg) (n : Nat) : Prop := ∃ v : Word, s.view r = some (.num v) ∧ v.toNat = n

/-- A segment value is well-formed (R57). -/
abbrev Segment.WellFormed (g : Segment) : Prop :=
  g.opt.length % 4 = 0 ∧ g.opt.length ≤ 40 ∧ doff g.ctrl = 5 + g.opt.length / 4

/-- A segment value fits the wire buffers (R57). -/
abbrev Segment.Fits (c : Config) (g : Segment) : Prop := g.WellFormed ∧ wireLen g ≤ c.maxLen

/-- "No partial segment is ever forwarded" (R127): a command that does not end `OK` leaves in `OBUF` what was there or nothing. -/
abbrev NothingForwarded (s t : State) : Prop := t.obuf = s.obuf ∨ t.obuf = []

/-- The header length a buffer declares: four times the high nibble of its byte 12 (R126: `4*IBUF[12][7:4]`). -/
def declaredLen (B : Bytes) : Nat := 4 * ((B.getD 12 0).toNat / 16)

/-- A buffer decodes (R49): at least 20 bytes, and the declared header length between 20 and the length of the buffer. -/
abbrev Decodable (B : Bytes) : Prop := 20 ≤ B.length ∧ 20 ≤ declaredLen B ∧ declaredLen B ≤ B.length

/-- The codes of R126 that an instruction can end with. The reply-class rows end as RESPOND does, the header row as DECODE
does, the pseudo-header row as SUM does (log entries 8 to 10). -/
def outcomes : Instr → List Byte
  | .decode => [0, 1]
  | .encode => [0, 5, 6]
  | .sum => [0]
  | .compile => [0]
  | .ckgen => [0, 5, 6]
  | .ckverify => [0, 5, 6, 7]
  | .respond => [0, 2, 3, 5, 6]
  | .process => [0, 1, 2, 3, 6]
  | .mkseg => [0]
  | .clear => [0]
  | .illegal _ => [4]
  | .rclassUnserved _ _ => [2, 5]
  | .rclassSyn _ => [0, 5, 6]
  | .rclassPsh _ => [0, 5, 6]
  | .rclassOther _ => [3, 5]
  | .tcpHeader _ => [0, 1]
  | .pseudoHeader _ _ _ => [0]

/-- The register groups of R11's column "written by". -/
inductive Group where
  | ibuf
  | addresses
  | obuf
  | acc
  | ckout
  | csum
  | segment
  | segv
  | ckok
  | reply
  deriving DecidableEq, Repr

/-- R11's column "written by" and R18: which groups an instruction may write, `STATUS` apart, which every command writes. -/
def writes : Instr → List Group
  | .decode => [.csum, .segment, .segv]
  | .encode => [.obuf]
  | .sum => [.acc]
  | .compile => [.ckout]
  | .ckgen => [.acc, .ckout, .csum]
  | .ckverify => [.acc, .ckout, .ckok]
  | .respond => [.acc, .ckout, .csum, .segment, .segv, .reply]
  | .process => [.obuf, .acc, .ckout, .csum, .segment, .segv, .reply]
  | .mkseg => [.segv]
  | .clear => [.ibuf, .addresses, .obuf, .acc, .ckout, .csum, .segment, .segv, .ckok, .reply]
  | .illegal _ => []
  | .rclassUnserved _ _ => [.segv, .reply]
  | .rclassSyn _ => [.acc, .ckout, .csum, .segment, .segv, .reply]
  | .rclassPsh _ => [.acc, .ckout, .csum, .segment, .segv, .reply]
  | .rclassOther _ => [.segv, .reply]
  | .tcpHeader _ => [.csum, .segment, .segv]
  | .pseudoHeader _ _ _ => [.acc]

/-- A group holds in `t` what it held in `s`. -/
def Group.Same (s t : State) : Group → Prop
  | .ibuf => t.ibuf = s.ibuf
  | .addresses => t.inSrc = s.inSrc ∧ t.inDst = s.inDst
  | .obuf => t.obuf = s.obuf
  | .acc => t.acc = s.acc
  | .ckout => t.ckout = s.ckout
  | .csum => t.seg.csum = s.seg.csum
  | .segment => withCsum t.seg 0 = withCsum s.seg 0
  | .segv => t.segv = s.segv
  | .ckok => t.ckok = s.ckok
  | .reply => t.reply = s.reply

end Sys2Proof.Machine
end

