-- ==== Sys2Proof/Certificates/Slice0/Obligations.lean ====
section
/-! DEFINITION. What is to be proved of the engine. -/

open Sys2Proof Sys2Proof.Machine

/-! ### Reset, the invariant, the step -/

/-- R23: every register at its reset value, and what R23 says a command then finds: no command can observe an undefined value. -/
def Obligations.ResetGivesEveryRegisterItsValue : Prop :=
  (State.reset.status = 0 ∧ State.reset.flags = 0 ∧ State.reset.ibuf = [] ∧ State.reset.inSrc = 0 ∧ State.reset.inDst = 0 ∧
    State.reset.obuf = [] ∧ State.reset.acc = 0 ∧ State.reset.ckout = 0) ∧
  (State.reset.seg.sport = 0 ∧ State.reset.seg.dport = 0 ∧ State.reset.seg.seq = 0 ∧ State.reset.seg.ackn = 0 ∧
    State.reset.seg.ctrl = 0 ∧ State.reset.seg.win = 0 ∧ State.reset.seg.csum = 0 ∧ State.reset.seg.urgp = 0 ∧
    State.reset.seg.src = 0 ∧ State.reset.seg.dst = 0 ∧ State.reset.seg.opt = [] ∧ State.reset.seg.pay = []) ∧
  (∀ i ∈ [Instr.encode, .ckgen, .ckverify, .respond], ∃ t, exec i State.reset = .next t ∧ t.status = 0x05) ∧
  (∃ t, exec .decode State.reset = .next t ∧ t.status = 0x01) ∧
  (∃ t, exec .sum State.reset = .next t ∧ t.status = 0 ∧ t.acc = 0) ∧
  (∃ t, exec .compile State.reset = .next t ∧ t.status = 0 ∧ t.ckout = 0xFFFF)

/-- The invariant holds after reset. -/
def Obligations.InvariantHoldsAtReset : Prop := State.reset.Inv

/-- Every step keeps the invariant: a legal configuration (R7), buffers within their capacities (R21, R36), bits 7:3 of
`FLAGS` zero (R18), a known code in `STATUS` (R126); and no step changes the configuration (R147). -/
def Obligations.EveryStepKeepsTheInvariant : Prop :=
  ∀ s t : State, s.Inv → step s = .next t → t.Inv ∧ t.cfg = s.cfg

/-- R16: a write of a code to `CMD` runs the command with that code to completion as one step; `CMD` keeps no value and a read
of it is refused (that the refused read is a step which gives the host nothing is the model's choice: log entry 14). -/
def Obligations.StepRunsTheDecodedCommand : Prop :=
  (∀ (s : State) (code : Byte) (a : Inputs) (rest : List HostAction) (i : Instr),
    s.program = .command code a :: rest → decode .cmd8 [code] = .ok i →
      i.wf = true ∧ step s = exec i { s with program := rest, inputs := a }) ∧
  (∀ (s : State) (rest : List HostAction), s.program = .read .cmd :: rest →
    step s = .next { s with program := rest, got := none })

/-- The step that follows `withFetchWord` runs exactly the instruction of the word, for every format (log entries 8 to 10, 16:
where a key, a header and a pseudo-header stand is the model's choice). -/
def Obligations.FetchedTableWordIsExecuted : Prop :=
  ∀ (s : State) (nbits w : Nat) (i : Instr), decodeTableWord nbits w = some i →
    step (s.withFetchWord nbits w) = exec i { (s.withFetchWord nbits w) with program := s.program }

/-! ### Encodings -/

/-- R53 and R54: the ten codes, and every other code illegal. -/
def Obligations.CommandCodesSelectTheirCommands : Prop :=
  decode .cmd8 [0x01] = .ok .decode ∧ decode .cmd8 [0x02] = .ok .encode ∧ decode .cmd8 [0x03] = .ok .sum ∧
  decode .cmd8 [0x04] = .ok .compile ∧ decode .cmd8 [0x05] = .ok .ckgen ∧ decode .cmd8 [0x06] = .ok .ckverify ∧
  decode .cmd8 [0x07] = .ok .respond ∧ decode .cmd8 [0x08] = .ok .process ∧ decode .cmd8 [0x09] = .ok .mkseg ∧
  decode .cmd8 [0x0A] = .ok .clear ∧
  (∀ c : Byte, (c = 0 ∨ 0x0B ≤ c.toNat) → decode .cmd8 [c] = .ok (.illegal c))

/-- Words of the spec's vectors (TR1, TR3, TR5, TR7, TD1, TG1): keys, a header and a pseudo-header. -/
def Obligations.SpecWordsDecode : Prop :=
  decode .rkey32 [0x00, 0x50, 0x50, 0x02] = .ok (.rclassSyn 0x5002) ∧
  decode .rkey32 [0x00, 0x50, 0x50, 0x18] = .ok (.rclassPsh 0x5018) ∧
  decode .rkey32 [0x00, 0x50, 0x50, 0x10] = .ok (.rclassOther 0x5010) ∧
  decode .rkey32 [0x1F, 0x90, 0x50, 0x02] = .ok (.rclassUnserved 8080 0x5002) ∧
  decode .hdr160 [0x04, 0xD2, 0x00, 0x50, 0x00, 0x00, 0x03, 0xE8, 0x00, 0x00, 0x00, 0x00, 0x50, 0x02, 0x72, 0x10, 0x20, 0xC6,
      0x00, 0x00] =
    .ok (.tcpHeader
      { sport := 1234, dport := 80, seq := 1000, ackn := 0, ctrl := 0x5002, win := 0x7210, csum := 0x20C6, urgp := 0 }) ∧
  decode .psh96 [0x0A, 0x00, 0x00, 0x02, 0x0A, 0x00, 0x00, 0x01, 0x00, 0x06, 0x00, 0x14] =
    .ok (.pseudoHeader 0x0A000002 0x0A000001 20) ∧
  decode .psh96 [0x0A, 0x00, 0x00, 0x02, 0x0A, 0x00, 0x00, 0x01, 0x06, 0x00, 0x00, 0x14] = .error .protocolNotSix

/-- For every well-formed instruction, decoding its bytes in its format gives it back (R45, R52, R53, R54, R58). -/
def Obligations.DecodeOfEncodeIsTheInstruction : Prop :=
  ∀ i : Instr, i.wf = true → decode i.format (encode i) = .ok i

/-- Whatever bytes decode, encoding the result gives those bytes back, and the result is well-formed: no bit is dropped. -/
def Obligations.EncodeOfDecodeIsTheBytes : Prop :=
  ∀ (f : Format) (B : Bytes) (i : Instr), decode f B = .ok i → encode i = B ∧ i.wf = true ∧ i.format = f

/-- R45's bit positions (which it derives from the order and widths of the table): the fields of the 160-bit number `H`, bit
159 first on the wire. -/
def Obligations.HeaderBitPositions : Prop :=
  ∀ w : Nat, w < 2 ^ 160 → ∃ h : Header, decodeTableWord 160 w = some (.tcpHeader h) ∧
    h.sport.toNat = w / 2 ^ 144 ∧ h.dport.toNat = w / 2 ^ 128 % 2 ^ 16 ∧ h.seq.toNat = w / 2 ^ 96 % 2 ^ 32 ∧
    h.ackn.toNat = w / 2 ^ 64 % 2 ^ 32 ∧ h.ctrl.toNat = w / 2 ^ 48 % 2 ^ 16 ∧ h.win.toNat = w / 2 ^ 32 % 2 ^ 16 ∧
    h.csum.toNat = w / 2 ^ 16 % 2 ^ 16 ∧ h.urgp.toNat = w % 2 ^ 16

/-- R48: the header length in its masked form, its values, and where the bare formula differs. -/
def Obligations.HeaderLengthIsTheMaskedNibble : Prop :=
  ∀ ctrl : Half,
    headerLenBytes ctrl = 4 * (ctrl.toNat / 4096) ∧ headerLenBytes ctrl = ((ctrl &&& 0xF000) >>> 10).toNat ∧
    headerLenBytes ctrl % 4 = 0 ∧ headerLenBytes ctrl ≤ 60 ∧
    (ctrl >>> 10).toNat = headerLenBytes ctrl + ctrl.toNat / 1024 % 4 ∧
    ((ctrl >>> 10).toNat ≠ headerLenBytes ctrl ↔ ctrl.toNat / 1024 % 4 ≠ 0)

/-- R58: the key, the four classes by their conditions, their match and mask forms, and the bits that never matter. -/
def Obligations.ReplyClassesAreTheTableRows : Prop :=
  (∀ p k : Half, (replyKey p k).toNat = p.toNat * 2 ^ 16 + k.toNat) ∧
  (∀ p k : Half,
    (classify (replyKey p k) = .unserved ↔ p ≠ 80) ∧
    (classify (replyKey p k) = .syn ↔ p = 80 ∧ k.getLsbD 1 = true) ∧
    (classify (replyKey p k) = .psh ↔ p = 80 ∧ k.getLsbD 1 = false ∧ k.getLsbD 3 = true) ∧
    (classify (replyKey p k) = .other ↔ p = 80 ∧ k.getLsbD 1 = false ∧ k.getLsbD 3 = false)) ∧
  (∀ K : Word,
    (classify K = .unserved ↔ ¬ (K &&& 0xFFFF0000 = 0x00500000)) ∧
    (classify K = .syn ↔ K &&& 0xFFFF0002 = 0x00500002) ∧
    (classify K = .psh ↔ K &&& 0xFFFF000A = 0x00500008) ∧
    (classify K = .other ↔ K &&& 0xFFFF000A = 0x00500000)) ∧
  (∀ p k k' : Half, k &&& 0x000A = k' &&& 0x000A → classify (replyKey p k) = classify (replyKey p k'))

/-! ### The segment codec -/

/-- R49: when a buffer decodes, and the derived lengths. -/
def Obligations.BuffersDecodeExactlyWhenLengthsAllow : Prop :=
  ∀ (B : Bytes) (a b : Word),
    ((∃ g, decodeSeg B a b = some g) ↔ 20 ≤ B.length ∧ 20 ≤ declaredLen B ∧ declaredLen B ≤ B.length) ∧
    (∀ g, decodeSeg B a b = some g →
      g.opt.length = declaredLen B - 20 ∧ g.pay.length = B.length - declaredLen B ∧
      headerLenBytes g.ctrl = declaredLen B ∧ 5 ≤ doff g.ctrl ∧ doff g.ctrl ≤ 15 ∧
      g.opt.length ∈ [0, 4, 8, 12, 16, 20, 24, 28, 32, 36, 40])

/-- R50 and R65: the eight fields are the big-endian numbers at the fixed offsets, verbatim; encoding is the inverse. -/
def Obligations.DecodedFieldsAreTheBigEndianBytes : Prop :=
  ∀ B : Bytes, 20 ≤ B.length →
    let n : Nat → Nat := fun o => (B.getD o 0).toNat
    let n16 : Nat → Nat := fun o => n o * 256 + n (o + 1)
    let n32 : Nat → Nat := fun o => n o * 2 ^ 24 + n (o + 1) * 2 ^ 16 + n (o + 2) * 2 ^ 8 + n (o + 3)
    (parseHeader B).sport.toNat = n16 0 ∧ (parseHeader B).dport.toNat = n16 2 ∧ (parseHeader B).seq.toNat = n32 4 ∧
    (parseHeader B).ackn.toNat = n32 8 ∧ (parseHeader B).ctrl.toNat = n16 12 ∧ (parseHeader B).win.toNat = n16 14 ∧
    (parseHeader B).csum.toNat = n16 16 ∧ (parseHeader B).urgp.toNat = n16 18 ∧ headerBytes (parseHeader B) = B.take 20

/-- R72 (a), which the spec derives from R66, R68 and R69: a well-formed segment comes back from its bytes. -/
def Obligations.DecodeUndoesEncode : Prop :=
  ∀ g : Segment, g.WellFormed → decodeSeg (encodeSeg g) g.src g.dst = some g

/-- R72 (b), derived: what decodes encodes to the same bytes, and is well-formed. -/
def Obligations.EncodeUndoesDecode : Prop :=
  ∀ (B : Bytes) (a b : Word) (g : Segment), decodeSeg B a b = some g →
    encodeSeg g = B ∧ g.WellFormed ∧ g.src = a ∧ g.dst = b

/-- R72 (c), derived: the bytes of a segment that is not well-formed do not decode, or decode to another cut of the same bytes
under the same header. The bound on the options is R21's. -/
def Obligations.IllFormedSegmentsAreRecut : Prop :=
  ∀ g : Segment, g.opt.length ≤ 40 → ¬ g.WellFormed →
    decodeSeg (encodeSeg g) g.src g.dst = none ∨
    ∃ g', decodeSeg (encodeSeg g) g.src g.dst = some g' ∧ g'.toHeader = g.toHeader ∧ g'.opt ++ g'.pay = g.opt ++ g.pay ∧
      g'.opt.length = 4 * doff g.ctrl - 20 ∧ g'.opt ≠ g.opt

/-- R67: DECODE, both outcomes, and all it leaves unchanged. -/
def Obligations.DecodeCommand : Prop :=
  decode .cmd8 [0x01] = .ok .decode ∧
  ∀ s : State,
    (s.ibuf.length < 20 ∨ declaredLen s.ibuf < 20 ∨ s.ibuf.length < declaredLen s.ibuf →
      exec .decode s = .next { s with flags := s.flags &&& 0xFE, status := 0x01 }) ∧
    (20 ≤ s.ibuf.length → 20 ≤ declaredLen s.ibuf → declaredLen s.ibuf ≤ s.ibuf.length →
      exec .decode s = .next
        { s with
          seg :=
            { toHeader := parseHeader s.ibuf
              opt := (s.ibuf.drop 20).take (declaredLen s.ibuf - 20)
              pay := s.ibuf.drop (declaredLen s.ibuf)
              src := s.inSrc
              dst := s.inDst }
          flags := s.flags ||| 0x01
          status := 0x00 })

/-- R70: ENCODE, its three outcomes, and all it leaves unchanged. -/
def Obligations.EncodeCommand : Prop :=
  decode .cmd8 [0x02] = .ok .encode ∧
  ∀ s : State,
    (s.flags.getLsbD 0 = false → exec .encode s = .next { s with status := 0x05 }) ∧
    (s.flags.getLsbD 0 = true → 20 + s.seg.opt.length + s.seg.pay.length > s.cfg.maxLen →
      exec .encode s = .next { s with status := 0x06 }) ∧
    (s.flags.getLsbD 0 = true → 20 + s.seg.opt.length + s.seg.pay.length ≤ s.cfg.maxLen →
      exec .encode s = .next
        { s with obuf := headerBytes s.seg.toHeader ++ s.seg.opt ++ s.seg.pay, status := 0x00 })

/-- R71: MKSEG sets `SEGV` and nothing else; after reset, MKSEG then ENCODE gives 20 zero bytes. -/
def Obligations.MksegCommand : Prop :=
  decode .cmd8 [0x09] = .ok .mkseg ∧
  (∀ s : State, exec .mkseg s = .next { s with flags := s.flags ||| 0x01, status := 0x00 }) ∧
  (∃ t u, exec .mkseg State.reset = .next t ∧ exec .encode t = .next u ∧ u.obuf = List.replicate 20 0)

/-- The TCP_HEADER row (the model's choice, log entry 9; layout R45): DECODE with that header in front of the rest of `IBUF`;
DECODE of 20 bytes or more is the row of the header it parses. -/
def Obligations.HeaderRowIsDecodeOfThatHeader : Prop :=
  ∀ s : State,
    (∀ h : Header, s.ibuf.length < 20 ∨ h.ctrl.toNat / 4096 < 5 ∨ s.ibuf.length < 4 * (h.ctrl.toNat / 4096) →
      exec (.tcpHeader h) s = .next { s with flags := s.flags &&& 0xFE, status := 0x01 }) ∧
    (∀ h : Header, 20 ≤ s.ibuf.length → 5 ≤ h.ctrl.toNat / 4096 → 4 * (h.ctrl.toNat / 4096) ≤ s.ibuf.length →
      exec (.tcpHeader h) s = .next
        { s with
          seg :=
            { toHeader := h
              opt := (s.ibuf.drop 20).take (4 * (h.ctrl.toNat / 4096) - 20)
              pay := s.ibuf.drop (4 * (h.ctrl.toNat / 4096))
              src := s.inSrc
              dst := s.inDst }
          flags := s.flags ||| 0x01
          status := 0x00 }) ∧
    (20 ≤ s.ibuf.length → exec .decode s = exec (.tcpHeader (parseHeader s.ibuf)) s)

/-! ### The checksum engine -/

/-- R80: the sum of the words, its bound, when it adds up over two parts, and that it does not always. -/
def Obligations.SumIsTheSumOfBigEndianWords : Prop :=
  (∀ B : Bytes, sum B = ∑ k ∈ Finset.range ((B.length + 1) / 2),
    ((B.getD (2 * k) 0).toNat * 256 + if 2 * k + 1 < B.length then (B.getD (2 * k + 1) 0).toNat else 0)) ∧
  (∀ X Y : Bytes, X.length % 2 = 0 → sum (X ++ Y) = sum X + sum Y) ∧
  (∀ B : Bytes, sum B ≤ 65535 * ((B.length + 1) / 2)) ∧
  sum [] = 0 ∧
  (∃ X Y : Bytes, X.length % 2 = 1 ∧ sum (X ++ Y) ≠ sum X + sum Y)

/-- R81: the loop of `Fold` and the properties the spec derives of it. -/
def Obligations.FoldIsTheResidueModulo65535 : Prop :=
  (∀ v : Nat, v ≤ 0xFFFF → fold v = v) ∧
  (∀ v : Nat, v > 0xFFFF → fold v = fold (v % 2 ^ 16 + v / 2 ^ 16)) ∧
  (∀ v : Nat, fold v ≤ 0xFFFF ∧ fold v % 65535 = v % 65535 ∧ (fold v = 0 ↔ v = 0) ∧
    (0 < v → (fold v = 0xFFFF ↔ v % 65535 = 0))) ∧
  (∀ v : Nat, v < 2 ^ 32 → v > 0xFFFF →
    v % 2 ^ 16 + v / 2 ^ 16 ≤ 0x1FFFE ∧
    (v % 2 ^ 16 + v / 2 ^ 16) % 2 ^ 16 + (v % 2 ^ 16 + v / 2 ^ 16) / 2 ^ 16 ≤ 0xFFFF)

/-- R82: the complement of the folded value, and where it is zero. -/
def Obligations.CompileComplementsTheFold : Prop :=
  (∀ v : Nat, (compile v).toNat = 0xFFFF - fold v) ∧
  compile 0 = 0xFFFF ∧
  (∀ v : Nat, compile v = 0 ↔ 0 < v ∧ v % 65535 = 0)

/-- R84: the sum of a segment, term by term, its bounds, and when the options and the payload may be summed apart. -/
def Obligations.SegmentSumTermByTerm : Prop :=
  ∀ g : Segment, 20 + g.opt.length + g.pay.length ≤ 65535 →
    (segSum0 g = g.src.toNat / 2 ^ 16 + g.src.toNat % 2 ^ 16 + g.dst.toNat / 2 ^ 16 + g.dst.toNat % 2 ^ 16 + 6 +
        (20 + g.opt.length + g.pay.length) + g.sport.toNat + g.dport.toNat + g.seq.toNat / 2 ^ 16 + g.seq.toNat % 2 ^ 16 +
        g.ackn.toNat / 2 ^ 16 + g.ackn.toNat % 2 ^ 16 + g.ctrl.toNat + g.win.toNat + g.urgp.toNat + sum (g.opt ++ g.pay)) ∧
    segSum g = segSum0 g + g.csum.toNat ∧
    segSum g = sum (pseudoHeader g ++ headerBytes g.toHeader ++ g.opt ++ g.pay) ∧
    (g.opt.length % 2 = 0 → sum (g.opt ++ g.pay) = sum g.opt + sum g.pay) ∧
    26 ≤ segSum0 g ∧
    segSum g ≤ 65535 * (16 + (g.opt.length + g.pay.length + 1) / 2) ∧ segSum g < 2 ^ 32

/-- R83 and R52: the 12 bytes of a segment's pseudo-header. -/
def Obligations.PseudoHeaderBytes : Prop :=
  ∀ g : Segment, 20 + g.opt.length + g.pay.length ≤ 65535 →
    (pseudoHeader g).map BitVec.toNat =
      [g.src.toNat / 2 ^ 24, g.src.toNat / 2 ^ 16 % 256, g.src.toNat / 2 ^ 8 % 256, g.src.toNat % 256,
       g.dst.toNat / 2 ^ 24, g.dst.toNat / 2 ^ 16 % 256, g.dst.toNat / 2 ^ 8 % 256, g.dst.toNat % 256,
       0, 6, (20 + g.opt.length + g.pay.length) / 256, (20 + g.opt.length + g.pay.length) % 256]

/-- R85, with the range it derives: the old checksum has no influence, 0xFFFF is never generated, 0x0000 exactly on multiples
of 65535. -/
def Obligations.GeneratedChecksumRange : Prop :=
  ∀ (g : Segment) (v : Half), 20 + g.opt.length + g.pay.length ≤ 65535 →
    ckGen g = { g with csum := compile (segSum0 g) } ∧ ckGen { g with csum := v } = ckGen g ∧
    (ckGen g).csum ≠ 0xFFFF ∧ ((ckGen g).csum = 0 ↔ segSum0 g % 65535 = 0)

/-- R86: the validity check, in its two forms; that it depends on the addresses. -/
def Obligations.ValidityFoldsToAllOnes : Prop :=
  (∀ g : Segment, 20 + g.opt.length + g.pay.length ≤ 65535 →
    (ckValid g = true ↔ compile (segSum g) = 0) ∧ (ckValid g = true ↔ fold (segSum g) = 0xFFFF) ∧ fold (segSum g) ≠ 0) ∧
  (∃ (g : Segment) (a : Word), ckValid g = true ∧ encodeSeg { g with src := a } = encodeSeg g ∧ ckValid { g with src := a } = false)

/-- R92, which the spec derives: a generated checksum is valid. -/
def Obligations.GeneratedChecksumIsValid : Prop :=
  ∀ g : Segment, 20 + g.opt.length + g.pay.length ≤ 65535 → ckValid (ckGen g) = true

/-- R93, which the spec derives: exactly the generated value validates, and 0xFFFF beside it where that value is 0x0000. -/
def Obligations.WhichChecksumsValidate : Prop :=
  ∀ (g : Segment) (v : Half), 20 + g.opt.length + g.pay.length ≤ 65535 →
    (ckValid { g with csum := v } = true ↔
      v = compile (segSum0 g) ∨ (compile (segSum0 g) = 0x0000 ∧ v = 0xFFFF))

/-- R87: SUM, and all it leaves unchanged; the sum of a buffer of at most 65535 bytes is exact. -/
def Obligations.SumCommand : Prop :=
  decode .cmd8 [0x03] = .ok .sum ∧
  ∀ s : State, exec .sum s = .next { s with acc := BitVec.ofNat 32 (sum s.ibuf), status := 0x00 } ∧
    (s.ibuf.length ≤ 65535 → (BitVec.ofNat 32 (sum s.ibuf)).toNat = sum s.ibuf)

/-- R88: COMPILE, its corner cases, and all it leaves unchanged. -/
def Obligations.CompileCommand : Prop :=
  decode .cmd8 [0x04] = .ok .compile ∧
  (∀ s : State, ∃ c : Half, exec .compile s = .next { s with ckout := c, status := 0x00 } ∧
    c.toNat = 0xFFFF - fold s.acc.toNat) ∧
  (∀ p ∈ [((0 : Word), (0xFFFF : Half)), (0xFFFF, 0), (0x00010000, 0xFFFE), (0xFFFFFFFF, 0), (0xFFFF0001, 0xFFFE),
      (0x0002DDF0, 0x220D)],
    ∀ s : State, s.acc = p.1 → ∃ t, exec .compile s = .next t ∧ t.ckout = p.2)

/-- R89: CKGEN, its three outcomes, and all it leaves unchanged. -/
def Obligations.CkgenCommand : Prop :=
  decode .cmd8 [0x05] = .ok .ckgen ∧
  ∀ s : State,
    (s.flags.getLsbD 0 = false → exec .ckgen s = .next { s with status := 0x05 }) ∧
    (s.flags.getLsbD 0 = true → 20 + s.seg.opt.length + s.seg.pay.length > 65535 →
      exec .ckgen s = .next { s with status := 0x06 }) ∧
    (s.flags.getLsbD 0 = true → 20 + s.seg.opt.length + s.seg.pay.length ≤ 65535 →
      ∃ (v : Word) (c : Half), v.toNat = segSum0 s.seg ∧ c.toNat = 0xFFFF - fold v.toNat ∧
        exec .ckgen s = .next { s with acc := v, ckout := c, seg := { s.seg with csum := c }, status := 0x00 })

/-- R90: CKVERIFY, its four outcomes, and all it leaves unchanged. -/
def Obligations.CkverifyCommand : Prop :=
  decode .cmd8 [0x06] = .ok .ckverify ∧
  ∀ s : State,
    (s.flags.getLsbD 0 = false → exec .ckverify s = .next { s with flags := s.flags &&& 0xFD, status := 0x05 }) ∧
    (s.flags.getLsbD 0 = true → 20 + s.seg.opt.length + s.seg.pay.length > 65535 →
      exec .ckverify s = .next { s with flags := s.flags &&& 0xFD, status := 0x06 }) ∧
    (s.flags.getLsbD 0 = true → 20 + s.seg.opt.length + s.seg.pay.length ≤ 65535 →
      ∃ (v : Word) (c : Half), v.toNat = segSum s.seg ∧ c.toNat = 0xFFFF - fold v.toNat ∧
        (c = 0 → exec .ckverify s = .next
          { s with acc := v, ckout := c, flags := s.flags ||| 0x02, status := 0x00 }) ∧
        (c ≠ 0 → exec .ckverify s = .next
          { s with acc := v, ckout := c, flags := s.flags &&& 0xFD, status := 0x07 }))

/-- The PSEUDO_HEADER row (the model's choice, log entry 10; layout R52): its six words are summed into `ACC`, exactly. -/
def Obligations.PseudoHeaderRowIsItsSum : Prop :=
  ∀ (src dst : Word) (len : Half) (s : State), ∃ v : Word,
    v.toNat = src.toNat / 2 ^ 16 + src.toNat % 2 ^ 16 + dst.toNat / 2 ^ 16 + dst.toNat % 2 ^ 16 + 6 + len.toNat ∧
    exec (.pseudoHeader src dst len) s = .next { s with acc := v, status := 0x00 }

/-! ### The response synthesizer -/

/-- R103 (with R109 and R107): RESPOND on a segment of class SYN: every field of the reply and all that is left unchanged. The
second clause is R103's form of the control word for a well-formed inbound segment. -/
def Obligations.RespondToSyn : Prop :=
  ∀ (s : State) (r : Word), s.Inv → s.flags.getLsbD 0 = true → s.seg.dport = 80 → s.seg.ctrl.getLsbD 1 = true →
    s.inputs.rand = some r →
    ∃ out : Segment,
      (out.sport = s.seg.dport ∧ out.dport = s.seg.sport ∧ out.src = s.seg.dst ∧ out.dst = s.seg.src ∧
        out.seq = r ∧ out.ackn.toNat = (s.seg.seq.toNat + 1) % 2 ^ 32 ∧ out.opt = s.seg.opt ∧ out.pay = [] ∧
        out.win = s.cfg.replyWindow ∧ out.urgp = 0 ∧
        out.ctrl.toNat = (20 + out.opt.length) / 4 * 2 ^ 12 + 0x12 ∧ out.csum.toNat = 0xFFFF - fold (segSum0 out)) ∧
      (s.seg.WellFormed → out.ctrl = (s.seg.ctrl &&& 0xF000) ||| 0x0012) ∧
      exec .respond s = .next
        { s with
          seg := out, acc := BitVec.ofNat 32 (segSum0 out), ckout := out.csum, flags := s.flags ||| 0x05, status := 0x00 }

/-- R104 (with R109, R107 and R108): RESPOND on a segment of class PSH whose reply fits: every field of the reply and all that
is left unchanged. -/
def Obligations.RespondToPsh : Prop :=
  ∀ s : State, s.Inv → s.flags.getLsbD 0 = true → s.seg.dport = 80 → s.seg.ctrl.getLsbD 1 = false →
    s.seg.ctrl.getLsbD 3 = true → s.inputs.httpUp = true →
    20 + (httpGen s.cfg s.seg.pay).length ≤ s.cfg.maxLen →
    ∃ out : Segment,
      (out.sport = s.seg.dport ∧ out.dport = s.seg.sport ∧ out.src = s.seg.dst ∧ out.dst = s.seg.src ∧
        out.seq = s.seg.ackn ∧ out.ackn.toNat = (s.seg.seq.toNat + s.seg.pay.length) % 2 ^ 32 ∧ out.opt = [] ∧
        out.pay = httpGen s.cfg s.seg.pay ∧ out.win = s.cfg.replyWindow ∧ out.urgp = 0 ∧ out.ctrl = 0x5011 ∧
        out.csum.toNat = 0xFFFF - fold (segSum0 out)) ∧
      exec .respond s = .next
        { s with
          seg := out, acc := BitVec.ofNat 32 (segSum0 out), ckout := out.csum, flags := s.flags ||| 0x05, status := 0x00 }

/-- R110 and R108: a PSH reply too long for the buffer is refused; RESPOND then only clears `SEGV` and `REPLY`. -/
def Obligations.RespondToPshTooLong : Prop :=
  ∀ s : State, s.flags.getLsbD 0 = true → s.seg.dport = 80 → s.seg.ctrl.getLsbD 1 = false → s.seg.ctrl.getLsbD 3 = true →
    s.inputs.httpUp = true → 20 + (httpGen s.cfg s.seg.pay).length > s.cfg.maxLen →
    exec .respond s = .next { s with flags := s.flags &&& 0xFA, status := 0x06 }

/-- R105, and the port gate of R102: class OTHER and class UNSERVED give no reply, whatever the collaborators answer: RESPOND
only clears `SEGV` and `REPLY`. -/
def Obligations.RespondWithoutReply : Prop :=
  ∀ s : State, s.flags.getLsbD 0 = true →
    (s.seg.dport ≠ 80 → exec .respond s = .next { s with flags := s.flags &&& 0xFA, status := 0x02 }) ∧
    (s.seg.dport = 80 → s.seg.ctrl.getLsbD 1 = false → s.seg.ctrl.getLsbD 3 = false →
      exec .respond s = .next { s with flags := s.flags &&& 0xFA, status := 0x03 })

/-- R110, its first test: without a segment RESPOND only clears `REPLY`. -/
def Obligations.RespondWithoutSegment : Prop :=
  ∀ s : State, s.flags.getLsbD 0 = false → exec .respond s = .next { s with flags := s.flags &&& 0xFB, status := 0x05 }

/-- The rows of R58 (their meaning is the model's choice, log entry 8): what the row a key matches does to a segment with that
key, field by field of the reply function of the class. A PSH reply may be too long; a SYN reply is not (`Inv`). Without a
segment every row only clears `REPLY`. -/
def Obligations.ReplyClassRowsComplete : Prop :=
  (∀ s : State, s.Inv → s.flags.getLsbD 0 = true →
    (s.seg.dport ≠ 80 →
      exec (.rclassUnserved s.seg.dport s.seg.ctrl) s = .next { s with flags := s.flags &&& 0xFA, status := 0x02 }) ∧
    (∀ r : Word, s.seg.dport = 80 → s.seg.ctrl.getLsbD 1 = true → s.inputs.rand = some r →
      exec (.rclassSyn s.seg.ctrl) s = .next
        { s with
          seg := synReply s.cfg s.seg r, acc := BitVec.ofNat 32 (segSum0 (synReply s.cfg s.seg r))
          ckout := (synReply s.cfg s.seg r).csum, flags := s.flags ||| 0x05, status := 0x00 }) ∧
    (s.seg.dport = 80 → s.seg.ctrl.getLsbD 1 = false → s.seg.ctrl.getLsbD 3 = true → s.inputs.httpUp = true →
      (20 + (httpGen s.cfg s.seg.pay).length ≤ s.cfg.maxLen →
        exec (.rclassPsh s.seg.ctrl) s = .next
          { s with
            seg := pshReply s.cfg s.seg (httpGen s.cfg)
            acc := BitVec.ofNat 32 (segSum0 (pshReply s.cfg s.seg (httpGen s.cfg)))
            ckout := (pshReply s.cfg s.seg (httpGen s.cfg)).csum, flags := s.flags ||| 0x05, status := 0x00 }) ∧
      (20 + (httpGen s.cfg s.seg.pay).length > s.cfg.maxLen →
        exec (.rclassPsh s.seg.ctrl) s = .next { s with flags := s.flags &&& 0xFA, status := 0x06 })) ∧
    (s.seg.dport = 80 → s.seg.ctrl.getLsbD 1 = false → s.seg.ctrl.getLsbD 3 = false →
      exec (.rclassOther s.seg.ctrl) s = .next { s with flags := s.flags &&& 0xFA, status := 0x03 })) ∧
  (∀ (s : State) (p k : Half), s.flags.getLsbD 0 = false →
    ∀ i ∈ [Instr.rclassUnserved p k, .rclassSyn k, .rclassPsh k, .rclassOther k],
      exec i s = .next { s with flags := s.flags &&& 0xFB, status := 0x05 })

/-- R110: RESPOND is its pseudocode over the pure function `Respond`, which gives no reply or one. A reply asks one collaborator
for an answer: the random source where SYN is set, the generator where it is clear. -/
def Obligations.RespondFollowsThePurePolicy : Prop :=
  decode .cmd8 [0x07] = .ok .respond ∧
  ∀ (s : State) (r : Word),
    (s.flags.getLsbD 0 = false → exec .respond s = .next { s with flags := s.flags &&& 0xFB, status := 0x05 }) ∧
    (s.flags.getLsbD 0 = true →
      (respondPolicy s.cfg s.seg r (httpGen s.cfg) = [] →
        exec .respond s = .next
          { s with flags := s.flags &&& 0xFA, status := if s.seg.dport ≠ 80 then 0x02 else 0x03 }) ∧
      (∀ out, respondPolicy s.cfg s.seg r (httpGen s.cfg) = [out] →
        (s.seg.ctrl.getLsbD 1 = true → s.inputs.rand = some r) → (s.seg.ctrl.getLsbD 1 = false → s.inputs.httpUp = true) →
        (20 + out.opt.length + out.pay.length > s.cfg.maxLen →
          exec .respond s = .next { s with flags := s.flags &&& 0xFA, status := 0x06 }) ∧
        (20 + out.opt.length + out.pay.length ≤ s.cfg.maxLen →
          out.csum = compile (segSum0 out) ∧
          exec .respond s = .next
            { s with
              seg := out, acc := BitVec.ofNat 32 (segSum0 out), ckout := out.csum, flags := s.flags ||| 0x05
              status := 0x00 }))) ∧
    (respondPolicy s.cfg s.seg r (httpGen s.cfg)).length ≤ 1

/-- R113, which the spec derives: what holds of every reply that RESPOND gives. -/
def Obligations.EveryReplyIsProper : Prop :=
  ∀ s t : State, s.Inv → exec .respond s = .next t → t.status = 0x00 →
    ckValid t.seg = true ∧ t.seg.sport = 80 ∧ t.seg.dport = s.seg.sport ∧ t.seg.src = s.seg.dst ∧ t.seg.dst = s.seg.src ∧
    t.seg.ctrl &&& 0x0FE0 = 0 ∧ t.seg.ctrl.getLsbD 4 = true ∧ t.seg.ctrl.getLsbD 3 = false ∧ t.seg.ctrl.getLsbD 2 = false ∧
    (t.seg.ctrl.getLsbD 1 = !t.seg.ctrl.getLsbD 0) ∧
    (s.seg.opt.length % 4 = 0 → t.seg.Fits s.cfg) ∧
    (t.seg.ctrl.getLsbD 1 = true → (encodeSeg t.seg).length = 20 + s.seg.opt.length) ∧
    (t.seg.ctrl.getLsbD 0 = true → (encodeSeg t.seg).length = 20 + (httpGen s.cfg s.seg.pay).length) ∧
    (s.seg.sport ≠ 80 → ∃ u, exec .respond t = .next u ∧ u.status = 0x02)

/-- R105, R106 and R108: the draw matters only on the SYN path and the generator only on the PSH path: with other answers of
the collaborators RESPOND does the same. -/
def Obligations.CollaboratorsMatterOnlyOnTheirPath : Prop :=
  ∀ (s t : State) (a : Inputs), exec .respond s = .next t →
    (classify (replyKey s.seg.dport s.seg.ctrl) = .syn → a.rand = s.inputs.rand) →
    (classify (replyKey s.seg.dport s.seg.ctrl) = .psh → a.httpUp = true) →
    exec .respond { s with inputs := a } = .next { t with inputs := a }

/-- R111: PROCESS in closed form: every outcome and all that is left unchanged. Without a reply the collaborators need not
answer; a reply asks the random source where SYN is set, the generator where it is clear. -/
def Obligations.ProcessCommand : Prop :=
  decode .cmd8 [0x08] = .ok .process ∧
  ∀ (s : State) (r : Word),
    (decodeSeg s.ibuf s.inSrc s.inDst = none →
      exec .process s = .next { s with obuf := [], flags := s.flags &&& 0xFA, status := 0x01 }) ∧
    (∀ g, decodeSeg s.ibuf s.inSrc s.inDst = some g →
      (respondPolicy s.cfg g r (httpGen s.cfg) = [] →
        exec .process s = .next
          { s with
            seg := g, obuf := [], flags := s.flags &&& 0xFA, status := if g.dport ≠ 80 then 0x02 else 0x03 }) ∧
      (∀ out, respondPolicy s.cfg g r (httpGen s.cfg) = [out] →
        (g.ctrl.getLsbD 1 = true → s.inputs.rand = some r) → (g.ctrl.getLsbD 1 = false → s.inputs.httpUp = true) →
        (20 + out.opt.length + out.pay.length > s.cfg.maxLen →
          exec .process s = .next { s with seg := g, obuf := [], flags := s.flags &&& 0xFA, status := 0x06 }) ∧
        (20 + out.opt.length + out.pay.length ≤ s.cfg.maxLen →
          exec .process s = .next
            { s with
              seg := out, obuf := encodeSeg out, acc := BitVec.ofNat 32 (segSum0 out), ckout := out.csum
              flags := s.flags ||| 0x05, status := 0x00 })))

/-- R60: a PROCESS that ends `OK` leaves what the host sequence DECODE, RESPOND, ENCODE leaves, three steps with the same
answers of the collaborators; and that sequence's commands all end `OK` then. -/
def Obligations.ProcessEqualsTheHostSequence : Prop :=
  ∀ (s t : State) (a : Inputs), step { s with program := [.command 0x08 a] } = .next t → t.status = 0x00 →
    ∃ u v, step { s with program := [.command 0x01 a, .command 0x07 a, .command 0x02 a] } = .next u ∧ u.status = 0x00 ∧
      step u = .next v ∧ v.status = 0x00 ∧ step v = .next t

/-- R20 and R146: the result of PROCESS depends on no register but `IBUF`, `IN_SRC`, `IN_DST`: two states that agree on these,
on the configuration and on the collaborators' answers end alike, whatever else they hold. -/
def Obligations.ProcessDependsOnItsOperandsOnly : Prop :=
  ∀ s s' t : State, s'.ibuf = s.ibuf → s'.inSrc = s.inSrc → s'.inDst = s.inDst → s'.cfg = s.cfg → s'.inputs = s.inputs →
    exec .process s = .next t →
    ∃ t', exec .process s' = .next t' ∧ t'.status = t.status ∧ t'.obuf = t.obuf ∧ t'.segv = t.segv ∧ t'.reply = t.reply ∧
      (t.status ≠ 0x01 → t'.seg = t.seg) ∧ (t.status = 0x00 → t'.acc = t.acc ∧ t'.ckout = t.ckout)

/-- The source's properties S1 and S2 through the whole engine: the bytes PROCESS puts out decode, under the addresses that go
with them, to the reply in `SEG`; it is well-formed, fits, and its checksum is valid. -/
def Obligations.ProcessedReplyDecodesAndVerifies : Prop :=
  ∀ s t : State, s.Inv → exec .process s = .next t → t.status = 0x00 →
    decodeSeg t.obuf t.seg.src t.seg.dst = some t.seg ∧ t.seg.Fits s.cfg ∧ ckValid t.seg = true ∧
    t.seg.src = s.inDst ∧ t.seg.dst = s.inSrc ∧ t.segv = true ∧ t.reply = true

/-! ### CLEAR, illegal codes, the host, whole-machine rules -/

/-- R112: CLEAR gives every register its reset value, so that the registers read as after reset; DECODE then truncates. -/
def Obligations.ClearCommand : Prop :=
  decode .cmd8 [0x0A] = .ok .clear ∧
  ∀ s : State, ∃ t, exec .clear s = .next t ∧
    (t.status = 0 ∧ t.flags = 0 ∧ t.ibuf = [] ∧ t.inSrc = 0 ∧ t.inDst = 0 ∧ t.obuf = [] ∧ t.acc = 0 ∧ t.ckout = 0 ∧
      t.seg =
        { sport := 0, dport := 0, seq := 0, ackn := 0, ctrl := 0, win := 0, csum := 0, urgp := 0, opt := [], pay := []
          src := 0, dst := 0 }) ∧
    (∀ r : Reg, t.view r = State.reset.view r) ∧
    (∃ u, exec .decode t = .next u ∧ u.status = 0x01)

/-- R145 as the model has it: the platform's reset, a host action between commands, leaves what CLEAR leaves, and neither
touches the configuration, the inputs, the host's remaining actions or what it has read (the model's choice, log entry 15). -/
def Obligations.PlatformResetLeavesWhatClearLeaves : Prop :=
  ∀ (s : State) (rest : List HostAction), s.program = .reset :: rest →
    step s = exec .clear { s with program := rest } ∧
    step s = .next { State.reset with cfg := s.cfg, inputs := s.inputs, program := rest, got := s.got }

/-- R54: a code that selects no command only writes `STATUS`. -/
def Obligations.IllegalCodesOnlySetStatus : Prop :=
  ∀ c : Byte, (c = 0x00 ∨ 0x0B ≤ c.toNat) →
    decode .cmd8 [c] = .ok (.illegal c) ∧ ∀ s : State, exec (.illegal c) s = .next { s with status := 0x04 }

/-- R13 and R21: host loads; one that is too long changes nothing. `SEGV` is not touched (R18), nor any other register. That a
refused load is a step of its own is the model's choice (log entry 14), and so is that COPY's own read of `OBUF` is not recorded
in `got` (log entry 6). -/
def Obligations.HostLoads : Prop :=
  ∀ (s : State) (b : Bytes) (rest : List HostAction),
    (s.program = .load .ibuf b :: rest →
      step s = .next { s with program := rest, ibuf := if b.length ≤ s.cfg.maxLen then b else s.ibuf }) ∧
    (s.program = .load .segOpt b :: rest →
      step s = .next
        { s with program := rest, seg := { s.seg with opt := if b.length ≤ 40 then b else s.seg.opt } }) ∧
    (s.program = .load .segPay b :: rest →
      step s = .next
        { s with program := rest, seg := { s.seg with pay := if b.length ≤ s.cfg.maxLen - 20 then b else s.seg.pay } }) ∧
    (s.program = .copy :: rest →
      step s = .next { s with program := rest, ibuf := if s.obuf.length ≤ s.cfg.maxLen then s.obuf else s.ibuf })

/-- R11's host column and R18: a host write of a scalar register writes that register and no other, `SEGV` included. -/
def Obligations.HostWritesOfScalars : Prop :=
  ∀ (s : State) (rest : List HostAction) (v : Half) (w : Word),
    (s.program = .set16 .segSport v :: rest → step s = .next { s with program := rest, seg := { s.seg with sport := v } }) ∧
    (s.program = .set16 .segDport v :: rest → step s = .next { s with program := rest, seg := { s.seg with dport := v } }) ∧
    (s.program = .set16 .segCtrl v :: rest → step s = .next { s with program := rest, seg := { s.seg with ctrl := v } }) ∧
    (s.program = .set16 .segWin v :: rest → step s = .next { s with program := rest, seg := { s.seg with win := v } }) ∧
    (s.program = .set16 .segCsum v :: rest → step s = .next { s with program := rest, seg := { s.seg with csum := v } }) ∧
    (s.program = .set16 .segUrgp v :: rest → step s = .next { s with program := rest, seg := { s.seg with urgp := v } }) ∧
    (s.program = .set32 .inSrc w :: rest → step s = .next { s with program := rest, inSrc := w }) ∧
    (s.program = .set32 .inDst w :: rest → step s = .next { s with program := rest, inDst := w }) ∧
    (s.program = .set32 .acc w :: rest → step s = .next { s with program := rest, acc := w }) ∧
    (s.program = .set32 .segSeq w :: rest → step s = .next { s with program := rest, seg := { s.seg with seq := w } }) ∧
    (s.program = .set32 .segAckn w :: rest → step s = .next { s with program := rest, seg := { s.seg with ackn := w } }) ∧
    (s.program = .set32 .segSrc w :: rest → step s = .next { s with program := rest, seg := { s.seg with src := w } }) ∧
    (s.program = .set32 .segDst w :: rest → step s = .next { s with program := rest, seg := { s.seg with dst := w } })

/-- R35 for reads, and R11 for what they answer: a read changes no register, and answers for each register of R11 what it holds,
the length registers the length of their buffer, exactly. That the answer stands in `got` is the model's choice (log entry 6),
and so is that a read of `CMD`, which is refused, is a step that answers nothing (log entry 14). With nothing left to do the
engine holds its registers (R137). -/
def Obligations.ReadsHaveNoSideEffect : Prop :=
  (∀ (s : State) (r : Reg) (rest : List HostAction), s.program = .read r :: rest →
    step s = .next { s with program := rest, got := s.view r }) ∧
  (∀ s : State,
    s.view .cmd = none ∧
    s.Reads .status s.status.toNat ∧ s.Reads .flags s.flags.toNat ∧
    s.view .ibuf = some (.seq s.ibuf) ∧ s.Reads .inSrc s.inSrc.toNat ∧ s.Reads .inDst s.inDst.toNat ∧
    s.view .obuf = some (.seq s.obuf) ∧ s.Reads .acc s.acc.toNat ∧ s.Reads .ckout s.ckout.toNat ∧
    s.Reads .segSport s.seg.sport.toNat ∧ s.Reads .segDport s.seg.dport.toNat ∧ s.Reads .segSeq s.seg.seq.toNat ∧
    s.Reads .segAckn s.seg.ackn.toNat ∧ s.Reads .segCtrl s.seg.ctrl.toNat ∧ s.Reads .segWin s.seg.win.toNat ∧
    s.Reads .segCsum s.seg.csum.toNat ∧ s.Reads .segUrgp s.seg.urgp.toNat ∧ s.Reads .segSrc s.seg.src.toNat ∧
    s.Reads .segDst s.seg.dst.toNat ∧ s.view .segOpt = some (.seq s.seg.opt) ∧ s.view .segPay = some (.seq s.seg.pay)) ∧
  (∀ s : State, s.Inv →
    s.Reads .ibufLen s.ibuf.length ∧ s.Reads .obufLen s.obuf.length ∧ s.Reads .optLen s.seg.opt.length ∧
    s.Reads .payLen s.seg.pay.length ∧ s.Reads .flags (s.segv.toNat + 2 * s.ckok.toNat + 4 * s.reply.toNat)) ∧
  (∀ s : State, s.program = [] → step s = .next s)

/-- R11's column "written by" and R18, over all instructions: what an instruction is not listed to write keeps its value, and
no instruction changes the configuration, the inputs, the host's list or what it has read. For the rows that are no commands
the list is the model's (log entries 8 to 10). -/
def Obligations.InstructionsWriteOnlyTheirRegisters : Prop :=
  ∀ (i : Instr) (s t : State), exec i s = .next t →
    (∀ x : Group, x ∉ writes i → x.Same s t) ∧
    t.cfg = s.cfg ∧ t.inputs = s.inputs ∧ t.program = s.program ∧ t.got = s.got

/-- R126 and R17, over all instructions: every instruction writes `STATUS`, with one of the codes its rows of R126 name. -/
def Obligations.OutcomesAreThoseOfTheTable : Prop :=
  ∀ (i : Instr) (s t : State), exec i s = .next t → t.status ∈ outcomes i

/-- R127: "No partial segment is ever forwarded": an instruction that does not end `OK` leaves in `OBUF` what was there, or
nothing (PROCESS). -/
def Obligations.NoPartialSegmentIsForwarded : Prop :=
  ∀ (i : Instr) (s t : State), exec i s = .next t → t.status ≠ 0x00 → NothingForwarded s t ∧ (i = .process → t.obuf = [])

/-- R132: a command, once started, always completes: with the collaborators connected (R147) every instruction answers a next
state, and so does every step. Otherwise the two faults of U6 happen exactly where an instruction asks a collaborator that does
not answer (log entry 4): RESPOND by the class of the segment in `SEG`, PROCESS by that of the segment it decodes, the rows
RCLASS_SYN and RCLASS_PSH by their own (log entry 8); no other instruction faults, and none is refused. -/
def Obligations.EveryCommandCompletes : Prop :=
  (∀ (i : Instr) (s : State), s.Connected → ∃ t, exec i s = .next t) ∧
  (∀ s : State, s.Connected → (∀ c a, HostAction.command c a ∈ s.program → a.rand.isSome = true ∧ a.httpUp = true) →
    ∃ t, step s = .next t) ∧
  (∀ (i : Instr) (s : State) (f : Fault), exec i s = .fault f →
    (f = .randomSourceSilent ∧ s.inputs.rand = none ∨ f = .httpGeneratorSilent ∧ s.inputs.httpUp = false) ∧
    (i = .respond ∨ i = .process ∨ (∃ k, i = .rclassSyn k) ∨ ∃ k, i = .rclassPsh k)) ∧
  (∀ (s : State) (f : Fault), exec .respond s = .fault f ↔ s.flags.getLsbD 0 = true ∧ Unanswered s.inputs s.seg f) ∧
  (∀ (s : State) (f : Fault), exec .process s = .fault f ↔
    ∃ g, decodeSeg s.ibuf s.inSrc s.inDst = some g ∧ Unanswered s.inputs g f) ∧
  (∀ (s : State) (k : Half) (f : Fault), exec (.rclassSyn k) s = .fault f ↔
    s.flags.getLsbD 0 = true ∧ s.inputs.rand = none ∧ f = .randomSourceSilent) ∧
  (∀ (s : State) (k : Half) (f : Fault), exec (.rclassPsh k) s = .fault f ↔
    s.flags.getLsbD 0 = true ∧ s.inputs.httpUp = false ∧ f = .httpGeneratorSilent) ∧
  (∀ (i : Instr) (s : State) (r : Refusal), exec i s ≠ .refused r)

/-- R35, which the spec derives: a second run in a row of DECODE, ENCODE, SUM, COMPILE, CKGEN, CKVERIFY, MKSEG or CLEAR, and of
PROCESS with the same answers of the collaborators, leaves the state as the first run left it; RESPOND does not always. -/
def Obligations.CommandsAreIdempotent : Prop :=
  (∀ i ∈ [Instr.decode, .encode, .sum, .compile, .ckgen, .ckverify, .mkseg, .clear, .process],
    ∀ s t : State, exec i s = .next t → exec i t = .next t) ∧
  (∃ s t : State, exec .respond s = .next t ∧ exec .respond t ≠ .next t)
end

