-- ==== Sys2Proof/Laws/Bytes.lean ====
section
/-! SUPPORT. How the operand forms behave: numbers to bytes and back, lengths, slices. -/

namespace Sys2Proof.Machine

@[simp] theorem enc16_length (v : Half) : (enc16 v).length = 2 := rfl

@[simp] theorem enc32_length (v : Word) : (enc32 v).length = 4 := rfl

@[simp] theorem headerBytes_length (h : Header) : (headerBytes h).length = 20 := rfl

@[simp] theorem pseudoBytes_length (a b : Word) (n : Half) : (pseudoBytes a b n).length = 12 := rfl

/-- The two halves of a 16-bit value put together again. -/
theorem half_halves (v : Half) : v.extractLsb' 8 8 ++ v.extractLsb' 0 8 = v := by
  apply BitVec.eq_of_toNat_eq
  simp only [BitVec.toNat_append, BitVec.extractLsb'_toNat, Nat.shiftLeft_eq, Nat.shiftRight_eq_div_pow]
  rw [← Nat.shiftLeft_eq, ← Nat.shiftLeft_add_eq_or_of_lt (by omega), Nat.shiftLeft_eq]
  omega

/-- The two halves of a 32-bit value put together again. -/
theorem word_halves (v : Word) : v.extractLsb' 16 16 ++ v.extractLsb' 0 16 = v := by
  apply BitVec.eq_of_toNat_eq
  simp only [BitVec.toNat_append, BitVec.extractLsb'_toNat, Nat.shiftLeft_eq, Nat.shiftRight_eq_div_pow]
  rw [← Nat.shiftLeft_eq, ← Nat.shiftLeft_add_eq_or_of_lt (by omega), Nat.shiftLeft_eq]
  omega

/-- A byte pair as a number (R31). -/
theorem append_bytes_toNat (a b : Byte) : (a ++ b : Half).toNat = a.toNat * 256 + b.toNat := by
  rw [BitVec.toNat_append, ← Nat.shiftLeft_add_eq_or_of_lt b.isLt, Nat.shiftLeft_eq]

/-- Two 16-bit values as one number (R31). -/
theorem append_halves_toNat (a b : Half) : (a ++ b : Word).toNat = a.toNat * 65536 + b.toNat := by
  rw [BitVec.toNat_append, ← Nat.shiftLeft_add_eq_or_of_lt b.isLt, Nat.shiftLeft_eq]

/-- The high byte of a byte pair. -/
theorem append_bytes_high (a b : Byte) : (a ++ b : Half).extractLsb' 8 8 = a := by
  apply BitVec.eq_of_toNat_eq
  rw [BitVec.extractLsb'_toNat, append_bytes_toNat, Nat.shiftRight_eq_div_pow]
  have := a.isLt; have := b.isLt; omega

/-- The low byte of a byte pair. -/
theorem append_bytes_low (a b : Byte) : (a ++ b : Half).extractLsb' 0 8 = b := by
  apply BitVec.eq_of_toNat_eq
  rw [BitVec.extractLsb'_toNat, append_bytes_toNat, Nat.shiftRight_eq_div_pow]
  have := a.isLt; have := b.isLt; omega

/-- The high half of a pair of 16-bit values. -/
theorem append_halves_high (a b : Half) : (a ++ b : Word).extractLsb' 16 16 = a := by
  apply BitVec.eq_of_toNat_eq
  rw [BitVec.extractLsb'_toNat, append_halves_toNat, Nat.shiftRight_eq_div_pow]
  have := a.isLt; have := b.isLt; omega

/-- The low half of a pair of 16-bit values. -/
theorem append_halves_low (a b : Half) : (a ++ b : Word).extractLsb' 0 16 = b := by
  apply BitVec.eq_of_toNat_eq
  rw [BitVec.extractLsb'_toNat, append_halves_toNat, Nat.shiftRight_eq_div_pow]
  have := a.isLt; have := b.isLt; omega

/-- Reading back a 16-bit value written at the head of a sequence. -/
theorem be16_enc16_append (v : Half) (B : Bytes) : be16 (enc16 v ++ B) 0 = v := half_halves v

/-- Reading back a 32-bit value written at the head of a sequence. -/
theorem be32_enc32_append (v : Word) (B : Bytes) : be32 (enc32 v ++ B) 0 = v := by
  have hi : be16 (enc32 v ++ B) 0 = v.extractLsb' 16 16 := half_halves _
  have lo : be16 (enc32 v ++ B) 2 = v.extractLsb' 0 16 := half_halves _
  rw [be32, hi, lo, word_halves]

/-- Writing a byte pair that was read (R30). -/
theorem enc16_be16 (B : Bytes) (o : Nat) : enc16 (be16 B o) = [byteAt B o, byteAt B (o + 1)] := by
  rw [enc16, be16, append_bytes_high, append_bytes_low]

/-- Writing four bytes that were read (R30). -/
theorem enc32_be32 (B : Bytes) (o : Nat) :
    enc32 (be32 B o) = [byteAt B o, byteAt B (o + 1), byteAt B (o + 2), byteAt B (o + 3)] := by
  rw [enc32, be32, append_halves_high, append_halves_low, enc16_be16, enc16_be16]; rfl

/-- `ParseHeader` of bytes that begin with `HeaderBytes` gives the fields back (R68). -/
theorem parseHeader_headerBytes_append (h : Header) (B : Bytes) : parseHeader (headerBytes h ++ B) = h := by
  obtain ⟨a, b, c, d, e, f, g, k⟩ := h
  refine congr (congr (congr (congr (congr (congr (congr (congrArg Header.mk ?_) ?_) ?_) ?_) ?_) ?_) ?_) ?_
  · exact half_halves a
  · exact half_halves b
  · exact be32_enc32_append c []
  · exact be32_enc32_append d []
  · exact half_halves e
  · exact half_halves f
  · exact half_halves g
  · exact half_halves k

/-- The first byte written from a control word is at offset 12 and holds `DOFF` in its high nibble (R47). -/
theorem doff_eq_div (ctrl : Half) : doff ctrl = ctrl.toNat / 4096 := by
  rw [doff, BitVec.extractLsb'_toNat, Nat.shiftRight_eq_div_pow]
  have := ctrl.isLt; omega

/-- `DOFF` of a control word that was read is the high nibble of its first byte (R47). -/
theorem doff_be16 (B : Bytes) (o : Nat) : doff (be16 B o) = (byteAt B o).toNat / 16 := by
  rw [doff_eq_div, be16, append_bytes_toNat]
  have := (byteAt B (o + 1)).isLt; omega

theorem doff_lt (ctrl : Half) : doff ctrl < 16 := (ctrl.extractLsb' 12 4).isLt

theorem slice_length (B : Bytes) (a b : Nat) (h : b ≤ B.length) : (slice B a b).length = b - a := by
  simp [slice, Nat.min_eq_left h]

theorem slice_to_end (B : Bytes) (a : Nat) : slice B a B.length = B.drop a := by simp [slice]

/-- The key of a port and a control word taken from a key is that key (R58). -/
theorem replyKey_of_parts (k : Word) : replyKey (k.extractLsb' 16 16) (k.extractLsb' 0 16) = k := word_halves k

end Sys2Proof.Machine
end

