-- ==== Sys2Proof/Laws/Checksum.lean ====
section
/-! SUPPORT. The recursion equations of `Sum` and `Fold`, and the small facts of the segment sums. -/

namespace Sys2Proof.Machine

@[simp] theorem sum_nil : sum [] = 0 := by rw [sum, sumWords]

@[simp] theorem sum_singleton (a : Byte) : sum [a] = a.toNat * 256 := by rw [sum, sumWords]

@[simp] theorem sum_cons_cons (a b : Byte) (B : Bytes) : sum (a :: b :: B) = a.toNat * 256 + b.toNat + sum B := by
  rw [sum, sum, sumWords]

/-- A pass makes a value above 0xFFFF smaller (R81). -/
theorem pass_lt (v : Nat) (h : v > 0xFFFF) : v % 0x10000 + v / 0x10000 < v := by omega

/-- Any number of passes from `v` on is enough. -/
theorem foldPasses_enough (n m v : Nat) (hn : v ≤ n) (hm : v ≤ m) : foldPasses n v = foldPasses m v := by
  induction n generalizing m v with
  | zero =>
    obtain rfl : v = 0 := by omega
    cases m <;> rfl
  | succ n ih =>
    by_cases h : v > 0xFFFF
    · obtain ⟨m, rfl⟩ : ∃ k, m = k + 1 := ⟨m - 1, by omega⟩
      have := pass_lt v h
      simp only [foldPasses, h, if_true]
      exact ih _ _ (by omega) (by omega)
    · cases m with
      | zero => obtain rfl : v = 0 := by omega
                rfl
      | succ m => simp [foldPasses, h]

@[simp] theorem pseudoHeader_length (g : Segment) : (pseudoHeader g).length = 12 := by simp [pseudoHeader]

@[simp] theorem withCsum_toHeader (g : Segment) (v : Half) :
    (withCsum g v).toHeader = { g.toHeader with csum := v } := rfl

@[simp] theorem withCsum_opt (g : Segment) (v : Half) : (withCsum g v).opt = g.opt := rfl

@[simp] theorem withCsum_pay (g : Segment) (v : Half) : (withCsum g v).pay = g.pay := rfl

@[simp] theorem withCsum_withCsum (g : Segment) (v w : Half) : withCsum (withCsum g v) w = withCsum g w := rfl

@[simp] theorem wireLen_withCsum (g : Segment) (v : Half) : wireLen (withCsum g v) = wireLen g := rfl

theorem ckGen_eq (g : Segment) : ckGen g = withCsum g (compile (segSum0 g)) := by rw [ckGen]

/-- `SegSum0` does not read the checksum field (R84). -/
@[simp] theorem segSum0_withCsum (g : Segment) (v : Half) : segSum0 (withCsum g v) = segSum0 g := by
  rw [segSum0, segSum0, withCsum_withCsum]

@[simp] theorem segSum0_ckGen (g : Segment) : segSum0 (ckGen g) = segSum0 g := by
  rw [ckGen, segSum0_withCsum]

@[simp] theorem wireLen_ckGen (g : Segment) : wireLen (ckGen g) = wireLen g := by
  rw [ckGen_eq, wireLen_withCsum]

@[simp] theorem ckGen_csum (g : Segment) : (ckGen g).csum = compile (segSum0 g) := by
  rw [ckGen_eq, withCsum]

end Sys2Proof.Machine
end

