-- ==== Sys2Proof/Laws/State.lean ====
section
/-! SUPPORT. One lemma per field per named update of the state, and how the flags read after a write of one. -/

namespace Sys2Proof.Machine

variable (s : State)

section
variable (v : Bool)
@[simp] theorem setSegv_status : (s.setSegv v).status = s.status := rfl
@[simp] theorem setSegv_flags : (s.setSegv v).flags = putFlag segvMask v s.flags := rfl
@[simp] theorem setSegv_ibuf : (s.setSegv v).ibuf = s.ibuf := rfl
@[simp] theorem setSegv_inSrc : (s.setSegv v).inSrc = s.inSrc := rfl
@[simp] theorem setSegv_inDst : (s.setSegv v).inDst = s.inDst := rfl
@[simp] theorem setSegv_obuf : (s.setSegv v).obuf = s.obuf := rfl
@[simp] theorem setSegv_acc : (s.setSegv v).acc = s.acc := rfl
@[simp] theorem setSegv_ckout : (s.setSegv v).ckout = s.ckout := rfl
@[simp] theorem setSegv_seg : (s.setSegv v).seg = s.seg := rfl
@[simp] theorem setSegv_cfg : (s.setSegv v).cfg = s.cfg := rfl
@[simp] theorem setSegv_inputs : (s.setSegv v).inputs = s.inputs := rfl
@[simp] theorem setSegv_program : (s.setSegv v).program = s.program := rfl
@[simp] theorem setSegv_got : (s.setSegv v).got = s.got := rfl
end

section
variable (v : Bool)
@[simp] theorem setCkok_status : (s.setCkok v).status = s.status := rfl
@[simp] theorem setCkok_flags : (s.setCkok v).flags = putFlag ckokMask v s.flags := rfl
@[simp] theorem setCkok_ibuf : (s.setCkok v).ibuf = s.ibuf := rfl
@[simp] theorem setCkok_inSrc : (s.setCkok v).inSrc = s.inSrc := rfl
@[simp] theorem setCkok_inDst : (s.setCkok v).inDst = s.inDst := rfl
@[simp] theorem setCkok_obuf : (s.setCkok v).obuf = s.obuf := rfl
@[simp] theorem setCkok_acc : (s.setCkok v).acc = s.acc := rfl
@[simp] theorem setCkok_ckout : (s.setCkok v).ckout = s.ckout := rfl
@[simp] theorem setCkok_seg : (s.setCkok v).seg = s.seg := rfl
@[simp] theorem setCkok_cfg : (s.setCkok v).cfg = s.cfg := rfl
@[simp] theorem setCkok_inputs : (s.setCkok v).inputs = s.inputs := rfl
@[simp] theorem setCkok_program : (s.setCkok v).program = s.program := rfl
@[simp] theorem setCkok_got : (s.setCkok v).got = s.got := rfl
end

section
variable (v : Bool)
@[simp] theorem setReply_status : (s.setReply v).status = s.status := rfl
@[simp] theorem setReply_flags : (s.setReply v).flags = putFlag replyMask v s.flags := rfl
@[simp] theorem setReply_ibuf : (s.setReply v).ibuf = s.ibuf := rfl
@[simp] theorem setReply_inSrc : (s.setReply v).inSrc = s.inSrc := rfl
@[simp] theorem setReply_inDst : (s.setReply v).inDst = s.inDst := rfl
@[simp] theorem setReply_obuf : (s.setReply v).obuf = s.obuf := rfl
@[simp] theorem setReply_acc : (s.setReply v).acc = s.acc := rfl
@[simp] theorem setReply_ckout : (s.setReply v).ckout = s.ckout := rfl
@[simp] theorem setReply_seg : (s.setReply v).seg = s.seg := rfl
@[simp] theorem setReply_cfg : (s.setReply v).cfg = s.cfg := rfl
@[simp] theorem setReply_inputs : (s.setReply v).inputs = s.inputs := rfl
@[simp] theorem setReply_program : (s.setReply v).program = s.program := rfl
@[simp] theorem setReply_got : (s.setReply v).got = s.got := rfl
end

section
variable (v : Status)
@[simp] theorem setStatus_status : (s.setStatus v).status = statusCode v := rfl
@[simp] theorem setStatus_flags : (s.setStatus v).flags = s.flags := rfl
@[simp] theorem setStatus_ibuf : (s.setStatus v).ibuf = s.ibuf := rfl
@[simp] theorem setStatus_inSrc : (s.setStatus v).inSrc = s.inSrc := rfl
@[simp] theorem setStatus_inDst : (s.setStatus v).inDst = s.inDst := rfl
@[simp] theorem setStatus_obuf : (s.setStatus v).obuf = s.obuf := rfl
@[simp] theorem setStatus_acc : (s.setStatus v).acc = s.acc := rfl
@[simp] theorem setStatus_ckout : (s.setStatus v).ckout = s.ckout := rfl
@[simp] theorem setStatus_seg : (s.setStatus v).seg = s.seg := rfl
@[simp] theorem setStatus_cfg : (s.setStatus v).cfg = s.cfg := rfl
@[simp] theorem setStatus_inputs : (s.setStatus v).inputs = s.inputs := rfl
@[simp] theorem setStatus_program : (s.setStatus v).program = s.program := rfl
@[simp] theorem setStatus_got : (s.setStatus v).got = s.got := rfl
end

section
variable (v : Segment)
@[simp] theorem setSeg_status : (s.setSeg v).status = s.status := rfl
@[simp] theorem setSeg_flags : (s.setSeg v).flags = s.flags := rfl
@[simp] theorem setSeg_ibuf : (s.setSeg v).ibuf = s.ibuf := rfl
@[simp] theorem setSeg_inSrc : (s.setSeg v).inSrc = s.inSrc := rfl
@[simp] theorem setSeg_inDst : (s.setSeg v).inDst = s.inDst := rfl
@[simp] theorem setSeg_obuf : (s.setSeg v).obuf = s.obuf := rfl
@[simp] theorem setSeg_acc : (s.setSeg v).acc = s.acc := rfl
@[simp] theorem setSeg_ckout : (s.setSeg v).ckout = s.ckout := rfl
@[simp] theorem setSeg_seg : (s.setSeg v).seg = v := rfl
@[simp] theorem setSeg_cfg : (s.setSeg v).cfg = s.cfg := rfl
@[simp] theorem setSeg_inputs : (s.setSeg v).inputs = s.inputs := rfl
@[simp] theorem setSeg_program : (s.setSeg v).program = s.program := rfl
@[simp] theorem setSeg_got : (s.setSeg v).got = s.got := rfl
end

section
variable (v : Bytes)
@[simp] theorem setObuf_status : (s.setObuf v).status = s.status := rfl
@[simp] theorem setObuf_flags : (s.setObuf v).flags = s.flags := rfl
@[simp] theorem setObuf_ibuf : (s.setObuf v).ibuf = s.ibuf := rfl
@[simp] theorem setObuf_inSrc : (s.setObuf v).inSrc = s.inSrc := rfl
@[simp] theorem setObuf_inDst : (s.setObuf v).inDst = s.inDst := rfl
@[simp] theorem setObuf_obuf : (s.setObuf v).obuf = v := rfl
@[simp] theorem setObuf_acc : (s.setObuf v).acc = s.acc := rfl
@[simp] theorem setObuf_ckout : (s.setObuf v).ckout = s.ckout := rfl
@[simp] theorem setObuf_seg : (s.setObuf v).seg = s.seg := rfl
@[simp] theorem setObuf_cfg : (s.setObuf v).cfg = s.cfg := rfl
@[simp] theorem setObuf_inputs : (s.setObuf v).inputs = s.inputs := rfl
@[simp] theorem setObuf_program : (s.setObuf v).program = s.program := rfl
@[simp] theorem setObuf_got : (s.setObuf v).got = s.got := rfl
end

section
variable (v : Bytes)
@[simp] theorem setIbuf_status : (s.setIbuf v).status = s.status := rfl
@[simp] theorem setIbuf_flags : (s.setIbuf v).flags = s.flags := rfl
@[simp] theorem setIbuf_ibuf : (s.setIbuf v).ibuf = v := rfl
@[simp] theorem setIbuf_inSrc : (s.setIbuf v).inSrc = s.inSrc := rfl
@[simp] theorem setIbuf_inDst : (s.setIbuf v).inDst = s.inDst := rfl
@[simp] theorem setIbuf_obuf : (s.setIbuf v).obuf = s.obuf := rfl
@[simp] theorem setIbuf_acc : (s.setIbuf v).acc = s.acc := rfl
@[simp] theorem setIbuf_ckout : (s.setIbuf v).ckout = s.ckout := rfl
@[simp] theorem setIbuf_seg : (s.setIbuf v).seg = s.seg := rfl
@[simp] theorem setIbuf_cfg : (s.setIbuf v).cfg = s.cfg := rfl
@[simp] theorem setIbuf_inputs : (s.setIbuf v).inputs = s.inputs := rfl
@[simp] theorem setIbuf_program : (s.setIbuf v).program = s.program := rfl
@[simp] theorem setIbuf_got : (s.setIbuf v).got = s.got := rfl
end

section
variable (v : Nat)
@[simp] theorem setAcc_status : (s.setAcc v).status = s.status := rfl
@[simp] theorem setAcc_flags : (s.setAcc v).flags = s.flags := rfl
@[simp] theorem setAcc_ibuf : (s.setAcc v).ibuf = s.ibuf := rfl
@[simp] theorem setAcc_inSrc : (s.setAcc v).inSrc = s.inSrc := rfl
@[simp] theorem setAcc_inDst : (s.setAcc v).inDst = s.inDst := rfl
@[simp] theorem setAcc_obuf : (s.setAcc v).obuf = s.obuf := rfl
@[simp] theorem setAcc_acc : (s.setAcc v).acc = BitVec.ofNat 32 v := rfl
@[simp] theorem setAcc_ckout : (s.setAcc v).ckout = s.ckout := rfl
@[simp] theorem setAcc_seg : (s.setAcc v).seg = s.seg := rfl
@[simp] theorem setAcc_cfg : (s.setAcc v).cfg = s.cfg := rfl
@[simp] theorem setAcc_inputs : (s.setAcc v).inputs = s.inputs := rfl
@[simp] theorem setAcc_program : (s.setAcc v).program = s.program := rfl
@[simp] theorem setAcc_got : (s.setAcc v).got = s.got := rfl
end

section
variable (v : Half)
@[simp] theorem setCkout_status : (s.setCkout v).status = s.status := rfl
@[simp] theorem setCkout_flags : (s.setCkout v).flags = s.flags := rfl
@[simp] theorem setCkout_ibuf : (s.setCkout v).ibuf = s.ibuf := rfl
@[simp] theorem setCkout_inSrc : (s.setCkout v).inSrc = s.inSrc := rfl
@[simp] theorem setCkout_inDst : (s.setCkout v).inDst = s.inDst := rfl
@[simp] theorem setCkout_obuf : (s.setCkout v).obuf = s.obuf := rfl
@[simp] theorem setCkout_acc : (s.setCkout v).acc = s.acc := rfl
@[simp] theorem setCkout_ckout : (s.setCkout v).ckout = v := rfl
@[simp] theorem setCkout_seg : (s.setCkout v).seg = s.seg := rfl
@[simp] theorem setCkout_cfg : (s.setCkout v).cfg = s.cfg := rfl
@[simp] theorem setCkout_inputs : (s.setCkout v).inputs = s.inputs := rfl
@[simp] theorem setCkout_program : (s.setCkout v).program = s.program := rfl
@[simp] theorem setCkout_got : (s.setCkout v).got = s.got := rfl
end

section
variable (v : Inputs)
@[simp] theorem setInputs_status : (s.setInputs v).status = s.status := rfl
@[simp] theorem setInputs_flags : (s.setInputs v).flags = s.flags := rfl
@[simp] theorem setInputs_ibuf : (s.setInputs v).ibuf = s.ibuf := rfl
@[simp] theorem setInputs_inSrc : (s.setInputs v).inSrc = s.inSrc := rfl
@[simp] theorem setInputs_inDst : (s.setInputs v).inDst = s.inDst := rfl
@[simp] theorem setInputs_obuf : (s.setInputs v).obuf = s.obuf := rfl
@[simp] theorem setInputs_acc : (s.setInputs v).acc = s.acc := rfl
@[simp] theorem setInputs_ckout : (s.setInputs v).ckout = s.ckout := rfl
@[simp] theorem setInputs_seg : (s.setInputs v).seg = s.seg := rfl
@[simp] theorem setInputs_cfg : (s.setInputs v).cfg = s.cfg := rfl
@[simp] theorem setInputs_inputs : (s.setInputs v).inputs = v := rfl
@[simp] theorem setInputs_program : (s.setInputs v).program = s.program := rfl
@[simp] theorem setInputs_got : (s.setInputs v).got = s.got := rfl
end

section
variable (v : List HostAction)
@[simp] theorem setProgram_status : (s.setProgram v).status = s.status := rfl
@[simp] theorem setProgram_flags : (s.setProgram v).flags = s.flags := rfl
@[simp] theorem setProgram_ibuf : (s.setProgram v).ibuf = s.ibuf := rfl
@[simp] theorem setProgram_inSrc : (s.setProgram v).inSrc = s.inSrc := rfl
@[simp] theorem setProgram_inDst : (s.setProgram v).inDst = s.inDst := rfl
@[simp] theorem setProgram_obuf : (s.setProgram v).obuf = s.obuf := rfl
@[simp] theorem setProgram_acc : (s.setProgram v).acc = s.acc := rfl
@[simp] theorem setProgram_ckout : (s.setProgram v).ckout = s.ckout := rfl
@[simp] theorem setProgram_seg : (s.setProgram v).seg = s.seg := rfl
@[simp] theorem setProgram_cfg : (s.setProgram v).cfg = s.cfg := rfl
@[simp] theorem setProgram_inputs : (s.setProgram v).inputs = s.inputs := rfl
@[simp] theorem setProgram_program : (s.setProgram v).program = v := rfl
@[simp] theorem setProgram_got : (s.setProgram v).got = s.got := rfl
end

section
variable (v : Option RegValue)
@[simp] theorem setGot_status : (s.setGot v).status = s.status := rfl
@[simp] theorem setGot_flags : (s.setGot v).flags = s.flags := rfl
@[simp] theorem setGot_ibuf : (s.setGot v).ibuf = s.ibuf := rfl
@[simp] theorem setGot_inSrc : (s.setGot v).inSrc = s.inSrc := rfl
@[simp] theorem setGot_inDst : (s.setGot v).inDst = s.inDst := rfl
@[simp] theorem setGot_obuf : (s.setGot v).obuf = s.obuf := rfl
@[simp] theorem setGot_acc : (s.setGot v).acc = s.acc := rfl
@[simp] theorem setGot_ckout : (s.setGot v).ckout = s.ckout := rfl
@[simp] theorem setGot_seg : (s.setGot v).seg = s.seg := rfl
@[simp] theorem setGot_cfg : (s.setGot v).cfg = s.cfg := rfl
@[simp] theorem setGot_inputs : (s.setGot v).inputs = s.inputs := rfl
@[simp] theorem setGot_program : (s.setGot v).program = s.program := rfl
@[simp] theorem setGot_got : (s.setGot v).got = v := rfl
end

@[simp] theorem clearRegs_status : s.clearRegs.status = 0 := rfl
@[simp] theorem clearRegs_flags : s.clearRegs.flags = 0 := rfl
@[simp] theorem clearRegs_ibuf : s.clearRegs.ibuf = [] := rfl
@[simp] theorem clearRegs_inSrc : s.clearRegs.inSrc = 0 := rfl
@[simp] theorem clearRegs_inDst : s.clearRegs.inDst = 0 := rfl
@[simp] theorem clearRegs_obuf : s.clearRegs.obuf = [] := rfl
@[simp] theorem clearRegs_acc : s.clearRegs.acc = 0 := rfl
@[simp] theorem clearRegs_ckout : s.clearRegs.ckout = 0 := rfl
@[simp] theorem clearRegs_seg : s.clearRegs.seg = Segment.zero := rfl
@[simp] theorem clearRegs_cfg : s.clearRegs.cfg = s.cfg := rfl
@[simp] theorem clearRegs_inputs : s.clearRegs.inputs = s.inputs := rfl
@[simp] theorem clearRegs_program : s.clearRegs.program = s.program := rfl
@[simp] theorem clearRegs_got : s.clearRegs.got = s.got := rfl

/-! The flags after a write of a flag. -/

theorem segv_eq_getLsbD : s.segv = s.flags.getLsbD 0 := by
  simp only [State.segv, flagSet, segvMask]
  generalize s.flags = f
  revert f
  decide +kernel

theorem ckok_eq_getLsbD : s.ckok = s.flags.getLsbD 1 := by
  simp only [State.ckok, flagSet, ckokMask]
  generalize s.flags = f
  revert f
  decide +kernel

theorem reply_eq_getLsbD : s.reply = s.flags.getLsbD 2 := by
  simp only [State.reply, flagSet, replyMask]
  generalize s.flags = f
  revert f
  decide +kernel

@[simp] theorem segv_setSegv (v : Bool) : (s.setSegv v).segv = v := by
  simp only [State.segv, State.setSegv]
  generalize s.flags = f
  revert f v
  decide +kernel

@[simp] theorem segv_setCkok (v : Bool) : (s.setCkok v).segv = s.segv := by
  simp only [State.segv, State.setCkok]
  generalize s.flags = f
  revert f v
  decide +kernel

@[simp] theorem segv_setReply (v : Bool) : (s.setReply v).segv = s.segv := by
  simp only [State.segv, State.setReply]
  generalize s.flags = f
  revert f v
  decide +kernel

@[simp] theorem segv_setStatus (v : Status) : (s.setStatus v).segv = s.segv := rfl
@[simp] theorem segv_setSeg (v : Segment) : (s.setSeg v).segv = s.segv := rfl
@[simp] theorem segv_setObuf (v : Bytes) : (s.setObuf v).segv = s.segv := rfl
@[simp] theorem segv_setIbuf (v : Bytes) : (s.setIbuf v).segv = s.segv := rfl
@[simp] theorem segv_setAcc (v : Nat) : (s.setAcc v).segv = s.segv := rfl
@[simp] theorem segv_setCkout (v : Half) : (s.setCkout v).segv = s.segv := rfl
@[simp] theorem segv_setInputs (v : Inputs) : (s.setInputs v).segv = s.segv := rfl
@[simp] theorem segv_setProgram (v : List HostAction) : (s.setProgram v).segv = s.segv := rfl
@[simp] theorem segv_setGot (v : Option RegValue) : (s.setGot v).segv = s.segv := rfl
@[simp] theorem segv_clearRegs : s.clearRegs.segv = false := (by decide : flagSet segvMask 0 = false)

@[simp] theorem ckok_setSegv (v : Bool) : (s.setSegv v).ckok = s.ckok := by
  simp only [State.ckok, State.setSegv]
  generalize s.flags = f
  revert f v
  decide +kernel

@[simp] theorem ckok_setCkok (v : Bool) : (s.setCkok v).ckok = v := by
  simp only [State.ckok, State.setCkok]
  generalize s.flags = f
  revert f v
  decide +kernel

@[simp] theorem ckok_setReply (v : Bool) : (s.setReply v).ckok = s.ckok := by
  simp only [State.ckok, State.setReply]
  generalize s.flags = f
  revert f v
  decide +kernel

@[simp] theorem ckok_setStatus (v : Status) : (s.setStatus v).ckok = s.ckok := rfl
@[simp] theorem ckok_setSeg (v : Segment) : (s.setSeg v).ckok = s.ckok := rfl
@[simp] theorem ckok_setObuf (v : Bytes) : (s.setObuf v).ckok = s.ckok := rfl
@[simp] theorem ckok_setIbuf (v : Bytes) : (s.setIbuf v).ckok = s.ckok := rfl
@[simp] theorem ckok_setAcc (v : Nat) : (s.setAcc v).ckok = s.ckok := rfl
@[simp] theorem ckok_setCkout (v : Half) : (s.setCkout v).ckok = s.ckok := rfl
@[simp] theorem ckok_setInputs (v : Inputs) : (s.setInputs v).ckok = s.ckok := rfl
@[simp] theorem ckok_setProgram (v : List HostAction) : (s.setProgram v).ckok = s.ckok := rfl
@[simp] theorem ckok_setGot (v : Option RegValue) : (s.setGot v).ckok = s.ckok := rfl
@[simp] theorem ckok_clearRegs : s.clearRegs.ckok = false := (by decide : flagSet ckokMask 0 = false)

@[simp] theorem reply_setSegv (v : Bool) : (s.setSegv v).reply = s.reply := by
  simp only [State.reply, State.setSegv]
  generalize s.flags = f
  revert f v
  decide +kernel

@[simp] theorem reply_setCkok (v : Bool) : (s.setCkok v).reply = s.reply := by
  simp only [State.reply, State.setCkok]
  generalize s.flags = f
  revert f v
  decide +kernel

@[simp] theorem reply_setReply (v : Bool) : (s.setReply v).reply = v := by
  simp only [State.reply, State.setReply]
  generalize s.flags = f
  revert f v
  decide +kernel

@[simp] theorem reply_setStatus (v : Status) : (s.setStatus v).reply = s.reply := rfl
@[simp] theorem reply_setSeg (v : Segment) : (s.setSeg v).reply = s.reply := rfl
@[simp] theorem reply_setObuf (v : Bytes) : (s.setObuf v).reply = s.reply := rfl
@[simp] theorem reply_setIbuf (v : Bytes) : (s.setIbuf v).reply = s.reply := rfl
@[simp] theorem reply_setAcc (v : Nat) : (s.setAcc v).reply = s.reply := rfl
@[simp] theorem reply_setCkout (v : Half) : (s.setCkout v).reply = s.reply := rfl
@[simp] theorem reply_setInputs (v : Inputs) : (s.setInputs v).reply = s.reply := rfl
@[simp] theorem reply_setProgram (v : List HostAction) : (s.setProgram v).reply = s.reply := rfl
@[simp] theorem reply_setGot (v : Option RegValue) : (s.setGot v).reply = s.reply := rfl
@[simp] theorem reply_clearRegs : s.clearRegs.reply = false := (by decide : flagSet replyMask 0 = false)

end Sys2Proof.Machine
end

