-- ==== Sys2Proof/Laws/Ops.lean ====
section
/-! SUPPORT. For each shared operation, once, everything it can do. -/

namespace Sys2Proof.Machine

variable (s t : State)

@[simp] theorem endWith_eq (st : Status) : endWith st s = .next (s.setStatus st) := rfl

/-- `andThen` answers a next state exactly when both stages do. -/
theorem andThen_eq_next (a : Answer) (f : State → Answer) :
    andThen a f = .next t ↔ ∃ u, a = .next u ∧ f u = .next t := by
  cases a <;> simp [andThen]

/-- `andThen` stops exactly when a stage does. -/
theorem andThen_eq_fault (a : Answer) (f : State → Answer) (r : Fault) :
    andThen a f = .fault r ↔ a = .fault r ∨ ∃ u, a = .next u ∧ f u = .fault r := by
  cases a <;> simp [andThen]

theorem andThen_eq_refused (a : Answer) (f : State → Answer) (r : Refusal) :
    andThen a f = .refused r ↔ a = .refused r ∨ ∃ u, a = .next u ∧ f u = .refused r := by
  cases a <;> simp [andThen]

/-- A status code names its outcome. -/
theorem statusCode_injective (a b : Status) (h : statusCode a = statusCode b) : a = b := by
  revert h; cases a <;> cases b <;> decide

theorem endedOk_setStatus (st : Status) : (s.setStatus st).endedOk = decide (st = .ok) := by
  cases st <;> rfl

/-- The two ends of `Decode` (R66). -/
theorem decodeSeg_cases (B : Bytes) (a b : Word) :
    ((B.length < 20 ∨ 4 * ((byteAt B 12).toNat / 16) < 20 ∨ B.length < 4 * ((byteAt B 12).toNat / 16)) ∧
      decodeSeg B a b = none) ∨
    (20 ≤ B.length ∧ 20 ≤ 4 * ((byteAt B 12).toNat / 16) ∧ 4 * ((byteAt B 12).toNat / 16) ≤ B.length ∧
      decodeSeg B a b = some
        { toHeader := parseHeader B
          opt := slice B 20 (4 * ((byteAt B 12).toNat / 16))
          pay := slice B (4 * ((byteAt B 12).toNat / 16)) B.length
          src := a
          dst := b }) := by
  have hl : headerLenBytes (parseHeader B).ctrl = 4 * ((byteAt B 12).toNat / 16) := by
    rw [headerLenBytes, ← doff_be16]; rfl
  simp only [decodeSeg, cutSegment, hl, fixedHdr]
  generalize 4 * ((byteAt B 12).toNat / 16) = n
  split_ifs with h1 h2 h3
  · exact .inl ⟨.inl h1, rfl⟩
  · exact .inl ⟨.inr (.inl h2), rfl⟩
  · exact .inl ⟨.inr (.inr h3), rfl⟩
  · exact .inr ⟨by omega, by omega, by omega, rfl⟩

/-- The three ends of the stage ENCODE (R70). -/
theorem encodeStage_cases :
    (s.segv = false ∧ encodeStage s = s.setStatus .noSegment) ∨
    (s.segv = true ∧ s.cfg.maxLen < wireLen s.seg ∧ encodeStage s = s.setStatus .lengthOverflow) ∨
    (s.segv = true ∧ wireLen s.seg ≤ s.cfg.maxLen ∧ encodeStage s = (s.setObuf (encodeSeg s.seg)).setStatus .ok) := by
  rw [encodeStage]
  split_ifs with h1 h2
  · exact .inl ⟨h1, rfl⟩
  · exact .inr (.inl ⟨by simpa using h1, h2, rfl⟩)
  · exact .inr (.inr ⟨by simpa using h1, by omega, rfl⟩)

/-- The state of a RESPOND that gives the reply `out` (R110). -/
def replied (out : Segment) (s : State) : State :=
  (((((s.setAcc (segSum0 out)).setCkout (compile (segSum0 out))).setSeg out).setSegv true).setReply true).setStatus .ok

/-- The state of a RESPOND that gives no reply (R110). -/
def unreplied (st : Status) (s : State) : State := ((s.setSegv false).setReply false).setStatus st

@[simp] theorem replied_ibuf (out : Segment) : (replied out s).ibuf = s.ibuf := by simp [replied]
@[simp] theorem replied_inSrc (out : Segment) : (replied out s).inSrc = s.inSrc := by simp [replied]
@[simp] theorem replied_inDst (out : Segment) : (replied out s).inDst = s.inDst := by simp [replied]
@[simp] theorem replied_obuf (out : Segment) : (replied out s).obuf = s.obuf := by simp [replied]
@[simp] theorem replied_cfg (out : Segment) : (replied out s).cfg = s.cfg := by simp [replied]
@[simp] theorem replied_inputs (out : Segment) : (replied out s).inputs = s.inputs := by simp [replied]
@[simp] theorem replied_program (out : Segment) : (replied out s).program = s.program := by simp [replied]
@[simp] theorem replied_got (out : Segment) : (replied out s).got = s.got := by simp [replied]
@[simp] theorem replied_seg (out : Segment) : (replied out s).seg = out := by simp [replied]
@[simp] theorem replied_status (out : Segment) : (replied out s).status = 0 := by simp [replied, statusCode]
@[simp] theorem replied_acc (out : Segment) : (replied out s).acc = BitVec.ofNat 32 (segSum0 out) := by simp [replied]
@[simp] theorem replied_ckout (out : Segment) : (replied out s).ckout = compile (segSum0 out) := by simp [replied]
@[simp] theorem replied_segv (out : Segment) : (replied out s).segv = true := by simp [replied]
@[simp] theorem replied_ckok (out : Segment) : (replied out s).ckok = s.ckok := by simp [replied]
@[simp] theorem replied_reply (out : Segment) : (replied out s).reply = true := by simp [replied]

@[simp] theorem unreplied_ibuf (st : Status) : (unreplied st s).ibuf = s.ibuf := by simp [unreplied]
@[simp] theorem unreplied_inSrc (st : Status) : (unreplied st s).inSrc = s.inSrc := by simp [unreplied]
@[simp] theorem unreplied_inDst (st : Status) : (unreplied st s).inDst = s.inDst := by simp [unreplied]
@[simp] theorem unreplied_obuf (st : Status) : (unreplied st s).obuf = s.obuf := by simp [unreplied]
@[simp] theorem unreplied_cfg (st : Status) : (unreplied st s).cfg = s.cfg := by simp [unreplied]
@[simp] theorem unreplied_inputs (st : Status) : (unreplied st s).inputs = s.inputs := by simp [unreplied]
@[simp] theorem unreplied_program (st : Status) : (unreplied st s).program = s.program := by simp [unreplied]
@[simp] theorem unreplied_got (st : Status) : (unreplied st s).got = s.got := by simp [unreplied]
@[simp] theorem unreplied_seg (st : Status) : (unreplied st s).seg = s.seg := by simp [unreplied]
@[simp] theorem unreplied_acc (st : Status) : (unreplied st s).acc = s.acc := by simp [unreplied]
@[simp] theorem unreplied_ckout (st : Status) : (unreplied st s).ckout = s.ckout := by simp [unreplied]
@[simp] theorem unreplied_status (st : Status) : (unreplied st s).status = statusCode st := by simp [unreplied]
@[simp] theorem unreplied_segv (st : Status) : (unreplied st s).segv = false := by simp [unreplied]
@[simp] theorem unreplied_ckok (st : Status) : (unreplied st s).ckok = s.ckok := by simp [unreplied]
@[simp] theorem unreplied_reply (st : Status) : (unreplied st s).reply = false := by simp [unreplied]

@[simp] theorem noReply_eq (st : Status) : noReply st s = .next (unreplied st s) := rfl

@[simp] theorem noSegmentReply_eq : noSegmentReply s = .next ((s.setReply false).setStatus .noSegment) := rfl

/-- The two ends of giving a reply (R110). -/
theorem giveReply_eq (out : Segment) :
    giveReply out s = .next (if s.cfg.maxLen < wireLen out then unreplied .lengthOverflow s else replied out s) := by
  rw [giveReply]; split_ifs <;> rfl

/-- What a reply class can do to the segment in `SEG` (R102 to R105): no reply, a reply that fits or not, or a stuck step. -/
theorem classStage_next (k : ReplyClass) (h : classStage k s = .next t) :
    (k = .unserved ∧ t = unreplied .policyReject s) ∨
    (k = .other ∧ t = unreplied .unhandled s) ∨
    (∃ out, ((∃ r, k = .syn ∧ s.inputs.rand = some r ∧ out = synReply s.cfg s.seg r) ∨
        (k = .psh ∧ s.inputs.httpUp = true ∧ out = pshReply s.cfg s.seg (httpGen s.cfg))) ∧
      ((s.cfg.maxLen < wireLen out ∧ t = unreplied .lengthOverflow s) ∨
        (wireLen out ≤ s.cfg.maxLen ∧ t = replied out s))) := by
  have fits : ∀ out, giveReply out s = .next t →
      (s.cfg.maxLen < wireLen out ∧ t = unreplied .lengthOverflow s) ∨
        (wireLen out ≤ s.cfg.maxLen ∧ t = replied out s) := by
    intro out ho
    rw [giveReply_eq] at ho
    injection ho with ho
    split_ifs at ho with hl
    · exact .inl ⟨hl, ho.symm⟩
    · exact .inr ⟨by omega, ho.symm⟩
  cases k with
  | unserved => injection h with h; exact .inl ⟨rfl, h.symm⟩
  | other => injection h with h; exact .inr (.inl ⟨rfl, h.symm⟩)
  | syn =>
    simp only [classStage, synStage] at h
    cases hr : s.inputs.rand with
    | none => simp [hr] at h
    | some r =>
      simp only [hr] at h
      exact .inr (.inr ⟨_, .inl ⟨r, rfl, rfl, rfl⟩, fits _ h⟩)
  | psh =>
    simp only [classStage, pshStage] at h
    split_ifs at h with hu
    exact .inr (.inr ⟨_, .inr ⟨rfl, hu, rfl⟩, fits _ h⟩)

/-- Where a reply class stops: only on a collaborator that does not answer (U6), and it never refuses. -/
theorem classStage_stops (k : ReplyClass) :
    (∃ u, classStage k s = .next u) ∨
    (k = .syn ∧ s.inputs.rand = none ∧ classStage k s = .fault .randomSourceSilent) ∨
    (k = .psh ∧ s.inputs.httpUp = false ∧ classStage k s = .fault .httpGeneratorSilent) := by
  cases k with
  | unserved => exact .inl ⟨_, rfl⟩
  | other => exact .inl ⟨_, rfl⟩
  | syn =>
    simp only [classStage, synStage]
    cases hr : s.inputs.rand with
    | none => exact .inr (.inl ⟨trivial, rfl, rfl⟩)
    | some r => exact .inl ⟨_, giveReply_eq _ _⟩
  | psh =>
    simp only [classStage, pshStage]
    cases hu : s.inputs.httpUp with
    | false => exact .inr (.inr ⟨trivial, rfl, rfl⟩)
    | true => exact .inl ⟨_, giveReply_eq _ _⟩

/-- A reply class stops exactly where it asks a collaborator that does not answer (U6). -/
theorem classStage_eq_fault (k : ReplyClass) (f : Fault) :
    classStage k s = .fault f ↔
      (k = .syn ∧ s.inputs.rand = none ∧ f = .randomSourceSilent) ∨
      (k = .psh ∧ s.inputs.httpUp = false ∧ f = .httpGeneratorSilent) := by
  constructor
  · intro h
    obtain ⟨u, e⟩ | ⟨hk, hr, e⟩ | ⟨hk, hu, e⟩ := classStage_stops s k <;> rw [e] at h <;> cases h
    · exact .inl ⟨hk, hr, rfl⟩
    · exact .inr ⟨hk, hu, rfl⟩
  · rintro (⟨rfl, hr, rfl⟩ | ⟨rfl, hu, rfl⟩)
    · simp [classStage, synStage, hr]
    · simp [classStage, pshStage, hu]

/-- The stage RESPOND (R110): without a segment, or by the class of the segment's key. -/
theorem respondStage_next (h : respondStage s = .next t) :
    (s.segv = false ∧ t = (s.setReply false).setStatus .noSegment) ∨
    (s.segv = true ∧ classStage (classify (replyKey s.seg.dport s.seg.ctrl)) s = .next t) := by
  rw [respondStage] at h
  split_ifs at h with hv
  · injection h with h; exact .inl ⟨hv, h.symm⟩
  · exact .inr ⟨by simpa using hv, h⟩

/-- The key fields of a key that was put into `SEG` are that key's (R58). -/
theorem classify_of_parts (k : Word) :
    classify (replyKey (k.extractLsb' 16 16) (k.extractLsb' 0 16)) = classify k := by rw [replyKey_of_parts]

/-- A reply is no longer than what it carries (R109). -/
theorem synReply_wireLen (c : Config) (g : Segment) (r : Word) : wireLen (synReply c g r) = 20 + g.opt.length := rfl

theorem pshReply_wireLen (c : Config) (g : Segment) (gen : Bytes → Bytes) :
    wireLen (pshReply c g gen) = 20 + (gen g.pay).length := by
  simp [pshReply, mkReply, wireLen, ckGen, fixedHdr]

/-- A step with a command next runs it (R16); with none next it is the host's (R39). -/
theorem step_command (code : Byte) (a : Inputs) (rest : List HostAction) (h : s.program = .command code a :: rest) :
    step s = exec (decodeCmd code) ((s.setProgram rest).setInputs a) := by simp [step, fetch, h]

theorem step_idle (h : s.program = []) : step s = .next s := by simp [step, fetch, hostStep, h]

theorem step_host (x : HostAction) (rest : List HostAction) (h : s.program = x :: rest)
    (hx : ∀ c a, x ≠ .command c a) : step s = .next (hostAct x (s.setProgram rest)) := by
  cases x with
  | command c a => exact absurd rfl (hx c a)
  | load _ _ => simp [step, fetch, hostStep, h]
  | set16 _ _ => simp [step, fetch, hostStep, h]
  | set32 _ _ => simp [step, fetch, hostStep, h]
  | copy => simp [step, fetch, hostStep, h]
  | read _ => simp [step, fetch, hostStep, h]
  | reset => simp [step, fetch, hostStep, h]

end Sys2Proof.Machine
end

