-- ==== Sys2Proof/Laws/Memory.lean ====
section
/-! SUPPORT. Every operation on the byte spaces keeps them within their capacities (R21, R36). -/

namespace Sys2Proof.Machine

variable (s : State)

theorem reset_memory_wf : Memory.wf State.reset := by decide

/-- `Memory.wf` is about the four sequences and the configuration only. -/
theorem memory_wf_of_same (t : State) (h : Memory.wf s) (hi : t.ibuf = s.ibuf) (ho : t.obuf = s.obuf)
    (hp : t.seg.opt = s.seg.opt) (hy : t.seg.pay = s.seg.pay) (hc : t.cfg = s.cfg) : Memory.wf t := by
  simpa only [Memory.wf, hi, ho, hp, hy, hc] using h

theorem setIbuf_wf (b : Bytes) (h : Memory.wf s) (hb : b.length ≤ s.cfg.maxLen) : Memory.wf (s.setIbuf b) :=
  ⟨hb, h.2⟩

theorem setObuf_wf (b : Bytes) (h : Memory.wf s) (hb : b.length ≤ s.cfg.maxLen) : Memory.wf (s.setObuf b) :=
  ⟨h.1, hb, h.2.2⟩

theorem setSeg_wf (g : Segment) (h : Memory.wf s) (ho : g.opt.length ≤ 40) (hp : g.pay.length ≤ s.cfg.maxLen - 20) :
    Memory.wf (s.setSeg g) :=
  ⟨h.1, h.2.1, ho, hp⟩

theorem clearRegs_wf : Memory.wf s.clearRegs := by
  simp [Memory.wf, Segment.zero]

/-- A host load keeps the capacities: one that does not fit changes nothing (R13, R21). -/
theorem loadBuf_wf (buf : LoadBuf) (b : Bytes) (h : Memory.wf s) : Memory.wf (loadBuf buf b s) := by
  cases buf with
  | ibuf =>
    simp only [loadBuf]
    split_ifs with hb
    · exact setIbuf_wf s b h hb
    · exact h
  | segOpt =>
    simp only [loadBuf]
    split_ifs with hb
    · exact ⟨h.1, h.2.1, hb, h.2.2.2⟩
    · exact h
  | segPay =>
    simp only [loadBuf]
    split_ifs with hb
    · exact ⟨h.1, h.2.1, h.2.2.1, hb⟩
    · exact h

theorem hostAct_wf (x : HostAction) (h : Memory.wf s) : Memory.wf (hostAct x s) := by
  cases x with
  | load buf b => exact loadBuf_wf s buf b h
  | set16 r v => cases r <;> exact h
  | set32 r v => cases r <;> exact h
  | copy => exact loadBuf_wf s .ibuf s.obuf h
  | read r => exact h
  | command c a => exact h
  | reset => exact clearRegs_wf s

/-- A decoded segment fits the options and payload buffers (R67: "a decoded segment fits"). -/
theorem cutSegment_fits (hd : Header) (B : Bytes) (a b : Word) (g : Segment) (h : cutSegment hd B a b = some g) :
    g.opt.length ≤ 40 ∧ 20 + g.opt.length + g.pay.length = B.length := by
  have hlt := doff_lt hd.ctrl
  rw [cutSegment] at h
  split_ifs at h with h1 h2
  cases h
  have ho := slice_length B fixedHdr _ (Nat.le_of_not_lt h2)
  have hp := slice_length B (headerLenBytes hd.ctrl) _ le_rfl
  simp only [ho, hp]
  simp only [headerLenBytes, fixedHdr] at *
  omega

theorem takeDecoded_wf (r : Option Segment) (h : Memory.wf s)
    (hr : ∀ g, r = some g → g.opt.length ≤ 40 ∧ g.pay.length ≤ s.cfg.maxLen - 20) : Memory.wf (takeDecoded r s) := by
  cases r with
  | none => exact h
  | some g => exact ⟨h.1, h.2.1, (hr g rfl).1, (hr g rfl).2⟩

theorem decodeStage_wf (h : Memory.wf s) : Memory.wf (decodeStage s) := by
  refine takeDecoded_wf s _ h fun g hg => ?_
  have hi : s.ibuf.length ≤ s.cfg.maxLen := h.1
  simp only [decodeSeg] at hg
  split_ifs at hg
  have := cutSegment_fits _ _ _ _ _ hg
  omega

theorem encodeSeg_length (g : Segment) : (encodeSeg g).length = wireLen g := by
  simp [encodeSeg, wireLen, headerBytes_length, fixedHdr, Nat.add_assoc]

theorem encodeStage_wf (h : Memory.wf s) : Memory.wf (encodeStage s) := by
  obtain ⟨-, e⟩ | ⟨-, -, e⟩ | ⟨-, hl, e⟩ := encodeStage_cases s
  · rw [e]; exact h
  · rw [e]; exact h
  · rw [e]; exact setObuf_wf s _ h ((encodeSeg_length _).trans_le hl)

/-- A reply that is given fits (R57: "Every reply RESPOND produces fits"). -/
theorem replied_wf (out : Segment) (h : Memory.wf s) (ho : out.opt.length ≤ 40) (hl : wireLen out ≤ s.cfg.maxLen) :
    Memory.wf (replied out s) := by
  simp only [wireLen, fixedHdr] at hl
  simp only [Memory.wf, replied_ibuf, replied_obuf, replied_seg, replied_cfg, capacity, payCap, fixedHdr] at h ⊢
  exact ⟨h.1, h.2.1, ho, by omega⟩

theorem unreplied_wf (st : Status) (h : Memory.wf s) : Memory.wf (unreplied st s) := h

end Sys2Proof.Machine
end

