-- ==== Sys2Proof/Laws/PerInstr.lean ====
section
/-! SUPPORT. What holds of every instruction as syntax, one lemma per constructor. -/

/-- The bytes of an instruction are as many as its format has (R45, R52, R53, R58). -/
def Sys2Proof.Laws.EncodedSize.Statement (i : Sys2Proof.Instr) : Prop :=
  (Sys2Proof.encode i).length = i.format.bytes

namespace Sys2Proof.Laws.EncodedSize

theorem decode : Statement .decode := rfl

theorem encode : Statement .encode := rfl

theorem sum : Statement .sum := rfl

theorem compile : Statement .compile := rfl

theorem ckgen : Statement .ckgen := rfl

theorem ckverify : Statement .ckverify := rfl

theorem respond : Statement .respond := rfl

theorem process : Statement .process := rfl

theorem mkseg : Statement .mkseg := rfl

theorem clear : Statement .clear := rfl

theorem illegal (code : Byte) : Statement (.illegal code) := rfl

theorem rclassUnserved (dport ctrl : Half) : Statement (.rclassUnserved dport ctrl) := rfl

theorem rclassSyn (ctrl : Half) : Statement (.rclassSyn ctrl) := rfl

theorem rclassPsh (ctrl : Half) : Statement (.rclassPsh ctrl) := rfl

theorem rclassOther (ctrl : Half) : Statement (.rclassOther ctrl) := rfl

theorem tcpHeader (h : Header) : Statement (.tcpHeader h) := rfl

theorem pseudoHeader (src dst : Word) (len : Half) : Statement (.pseudoHeader src dst len) := rfl

end Sys2Proof.Laws.EncodedSize
end

