-- ==== Sys2Proof/Tests/Slice0.lean ====
section
/-! SUPPORT. Small checks against the spec's own vectors (95_test_vectors.md), and witnesses that the hypotheses of the
statements can be met. `sum`, `fold` and `segSum` are irreducible, so a test that adds up words asks the kernel. -/

namespace Sys2Proof.Tests

open Sys2Proof Sys2Proof.Machine

/-! ### Helpers -/

/-- The answer is a next state of which a test holds. -/
def after (a : Answer) (p : State → Bool) : Bool :=
  match a with
  | .next s => p s
  | .fault _ => false
  | .refused _ => false

theorem exists_of_after {a : Answer} {p : State → Bool} (h : after a p = true) : ∃ t, a = .next t ∧ p t = true := by
  cases a with
  | next s => exact ⟨s, rfl, h⟩
  | fault f => cases h
  | refused r => cases h

/-- `A = 10.0.0.2`, the remote sender of the vectors. -/
def addrA : Word := 0x0A000002

/-- `B = 10.0.0.1`, the served host of the vectors. -/
def addrB : Word := 0x0A000001

/-- The bytes of TD1, TG1 and TR1. -/
def td1 : Bytes :=
  [0x04, 0xD2, 0x00, 0x50, 0x00, 0x00, 0x03, 0xE8, 0x00, 0x00, 0x00, 0x00, 0x50, 0x02, 0x72, 0x10, 0x20, 0xC6, 0x00, 0x00]

/-- The segment of TD1, as the spec prints its fields. -/
def td1Seg : Segment :=
  { sport := 1234, dport := 80, seq := 1000, ackn := 0, ctrl := 0x5002, win := 0x7210, csum := 0x20C6, urgp := 0
    opt := [], pay := [], src := addrA, dst := addrB }

/-- The reply of TR1, as the spec prints its fields. -/
def tr1Reply : Segment :=
  { sport := 80, dport := 1234, seq := 0x12345678, ackn := 1001, ctrl := 0x5012, win := 0xFFFF, csum := 0x2A19, urgp := 0
    opt := [], pay := [], src := addrB, dst := addrA }

/-- The segment of TE2. -/
def te2Seg : Segment :=
  { sport := 1, dport := 2, seq := 3, ackn := 4, ctrl := 0x6002, win := 5, csum := 6, urgp := 7
    opt := [0xAA, 0xBB, 0xCC, 0xDD], pay := [0xEE], src := 0, dst := 0 }

/-- The inbound segment of TR8 and TR9. -/
def tr9Seg (ctrl : Half) : Segment :=
  { sport := 1234, dport := 80, seq := 7, ackn := 9, ctrl := ctrl, win := 0x7210, csum := 0, urgp := 0
    opt := [], pay := [0x61, 0x62], src := addrA, dst := addrB }

/-- `W64` with bytes 12 and 13 replaced (section 2.2). -/
def w64 (b12 b13 : Byte) : Bytes := (((List.range 64).map (BitVec.ofNat 8)).set 12 b12).set 13 b13

/-- A buffer and its addresses loaded after reset. -/
def loaded (B : Bytes) : State := { State.reset with ibuf := B, inSrc := addrA, inDst := addrB }

/-- A segment declared after reset. -/
def holding (g : Segment) : State := { State.reset with seg := g, flags := 0x01 }

/-- The draw of a step. -/
def drawing (r : Word) (s : State) : State := { s with inputs := { rand := some r, httpUp := true } }

/-- A generator that answers one request as known. -/
def answering (req rsp : Bytes) (s : State) : State := { s with cfg := { s.cfg with httpKnown := [(req, rsp)] } }

/-- A step in which neither collaborator answers. -/
def silent (s : State) : State := { s with inputs := { rand := none, httpUp := false } }

/-- Another capacity of the wire buffers. -/
def withMaxLen (n : Nat) (s : State) : State := { s with cfg := { s.cfg with maxLen := n } }

/-! ### WellFormed refuses what its checks are for (R54, R58) -/

theorem test_wf_refuses_a_command_code_as_illegal :
    (Instr.illegal 0x01).wf = false ∧ (Instr.illegal 0x0A).wf = false ∧ (Instr.illegal 0x00).wf = true ∧
      (Instr.illegal 0x0B).wf = true ∧ (Instr.illegal 0xFF).wf = true := by decide

theorem test_wf_refuses_keys_of_another_row :
    (Instr.rclassUnserved 80 0x5002).wf = false ∧ (Instr.rclassSyn 0x5018).wf = false ∧
      (Instr.rclassPsh 0x500A).wf = false ∧ (Instr.rclassPsh 0x5010).wf = false ∧ (Instr.rclassOther 0x5002).wf = false ∧
      (Instr.rclassOther 0x5008).wf = false := by decide

/-! ### Words written out from the spec's encodings -/

/-- R53, R54: every code of a command, and three of none (P4, TX5 to TX7). -/
theorem test_decode_codes :
    decode .cmd8 [0b00000001] = .ok .decode ∧ decode .cmd8 [0b00000010] = .ok .encode ∧ decode .cmd8 [0b00000011] = .ok .sum ∧
      decode .cmd8 [0b00000100] = .ok .compile ∧ decode .cmd8 [0b00000101] = .ok .ckgen ∧
      decode .cmd8 [0b00000110] = .ok .ckverify ∧ decode .cmd8 [0b00000111] = .ok .respond ∧
      decode .cmd8 [0b00001000] = .ok .process ∧ decode .cmd8 [0b00001001] = .ok .mkseg ∧
      decode .cmd8 [0b00001010] = .ok .clear ∧ decode .cmd8 [0x00] = .ok (.illegal 0x00) ∧
      decode .cmd8 [0x0B] = .ok (.illegal 0x0B) ∧ decode .cmd8 [0xFF] = .ok (.illegal 0xFF) := by decide

/-- R58: the keys of TR1, TR3, TR7 and TR5. -/
theorem test_decode_keys :
    decodeTableWord 32 0x00505002 = some (.rclassSyn 0x5002) ∧ decodeTableWord 32 0x00505018 = some (.rclassPsh 0x5018) ∧
      decodeTableWord 32 0x00505010 = some (.rclassOther 0x5010) ∧
      decodeTableWord 32 0x1F905002 = some (.rclassUnserved 8080 0x5002) := by decide

/-- R45: the header of TD1. -/
theorem test_decode_header : decode .hdr160 td1 = .ok (.tcpHeader td1Seg.toHeader) := by decide

/-- R52: the pseudo-header of TG1, and one with the protocol in the wrong byte. -/
theorem test_decode_pseudo_header :
    decode .psh96 [0x0A, 0x00, 0x00, 0x02, 0x0A, 0x00, 0x00, 0x01, 0x00, 0x06, 0x00, 0x14] =
        .ok (.pseudoHeader addrA addrB 20) ∧
      decode .psh96 [0x0A, 0x00, 0x00, 0x02, 0x0A, 0x00, 0x00, 0x01, 0x06, 0x00, 0x00, 0x14] = .error .protocolNotSix := by
  decide

/-- A format given another number of bytes. -/
theorem test_decode_refuses_wrong_lengths :
    decode .cmd8 [] = .error .wrongLength ∧ decode .rkey32 [0x00, 0x50, 0x50] = .error .wrongLength ∧
      decode .psh96 [0x00] = .error .wrongLength ∧ decode .hdr160 (td1.take 19) = .error .wrongLength := by decide

/-! ### The spec's vectors, one step each -/

/-- TD1. -/
theorem test_decode_td1 :
    after (exec .decode (loaded td1)) (fun t => t.status == 0x00 && t.flags == 0x01 && t.seg == td1Seg) = true := by decide

/-- TD8: bits 11:10 of the control word do not count (conflict C1). -/
theorem test_decode_masks_the_header_length :
    after (exec .decode (loaded (w64 0x5C 0x02)))
      (fun t => t.status == 0x00 && t.seg.ctrl == 0x5C02 && t.seg.opt == [] && t.seg.pay.length == 44 &&
        t.seg.pay.take 2 == [0x14, 0x15]) = true := by decide

/-- TE2. -/
theorem test_encode_te2 :
    after (exec .encode (holding te2Seg))
      (fun t => t.obuf == [0x00, 0x01, 0x00, 0x02, 0x00, 0x00, 0x00, 0x03, 0x00, 0x00, 0x00, 0x04, 0x60, 0x02, 0x00, 0x05,
        0x00, 0x06, 0x00, 0x07, 0xAA, 0xBB, 0xCC, 0xDD, 0xEE]) = true := by decide

/-- R70: one byte more than `MAX_LEN`, and exactly as many. -/
theorem test_encode_at_the_capacity :
    after (exec .encode (withMaxLen 64 (holding { te2Seg with pay := List.replicate 41 0 })))
        (fun t => t.status == 0x06 && t.obuf == []) = true ∧
      after (exec .encode (withMaxLen 64 (holding { te2Seg with pay := List.replicate 40 0 })))
        (fun t => t.status == 0x00 && t.obuf.length == 64) = true := by decide

/-- TS3: an odd last byte. -/
theorem test_sum_ts3 : after (exec .sum (loaded [0x01, 0x02, 0x03])) (fun t => t.acc == 0x00000402) = true := by
  decide +kernel

/-- TS4: the carries are kept. -/
theorem test_sum_ts4 :
    after (exec .sum (loaded [0x00, 0x01, 0xF2, 0x03, 0xF4, 0xF5, 0xF6, 0xF7])) (fun t => t.acc == 0x0002DDF0) = true := by
  decide +kernel

/-- TC6: a second fold. -/
theorem test_compile_tc6 :
    after (exec .compile { State.reset with acc := 0x0001FFFF }) (fun t => t.ckout == 0xFFFE && t.acc == 0x0001FFFF) = true := by
  decide +kernel

/-- TC7. -/
theorem test_compile_tc7 :
    after (exec .compile { State.reset with acc := 0xFFFFFFFF }) (fun t => t.ckout == 0x0000) = true := by decide +kernel

/-- The segment of TG6. -/
def tg6Seg : Segment :=
  { sport := 49152, dport := 7, seq := 0xDEADBEEF, ackn := 0x01020304, ctrl := 0x6018, win := 0x0400, csum := 0xAAAA, urgp := 0
    opt := [0x01, 0x01, 0x01, 0x00], pay := [0x61, 0x62, 0x63], src := 0xC0A8010A, dst := 0xC0A80114 }

/-- TG6: an odd payload; the old checksum is ignored (program P3, line 10). -/
theorem test_ckgen_tg6 :
    after (exec .ckgen (holding tg6Seg))
      (fun t => t.acc == 0x00050FB3 && t.ckout == 0xF047 && t.seg == { tg6Seg with csum := 0xF047 }) = true := by
  decide +kernel

/-- TG7: the options and the payload are one range (conflict C2). -/
theorem test_ckgen_tg7 :
    after (exec .ckgen (holding { Segment.zero with ctrl := 0x5000, opt := [0x01, 0x02, 0x03], pay := [0x04] }))
      (fun t => t.acc == 0x00005424 && t.seg.csum == 0xABDB) = true := by decide +kernel

/-- TV2: one bit wrong; the flag of an earlier check is cleared and the segment stays. -/
theorem test_ckverify_tv2 :
    after (exec .ckverify { holding { td1Seg with csum := 0x20C7 } with flags := 0x03 })
      (fun t => t.status == 0x07 && t.acc == 0x00010000 && t.ckout == 0xFFFE && t.flags == 0x01) = true := by decide +kernel

/-- TV5: 0xFFFF passes where the right checksum is 0x0000. -/
theorem test_ckverify_tv5 :
    after (exec .ckverify (holding { td1Seg with seq := 0x000024AE, csum := 0xFFFF }))
      (fun t => t.status == 0x00 && t.acc == 0x0001FFFE && t.ckout == 0x0000 && t.flags == 0x03) = true := by decide +kernel

/-- TR12: host-built, options of three bytes. -/
theorem test_respond_tr12 :
    after
      (exec .respond
        (drawing 0 (holding { Segment.zero with sport := 5, dport := 80, ctrl := 0x5002, opt := [0x01, 0x02, 0x03] })))
      (fun t => t.seg.ctrl == 0x5012 && t.seg.opt == [0x01, 0x02, 0x03] && t.seg.ackn == 1 && t.seg.csum == 0xAB78 &&
        t.acc == 0x00015486) = true := by decide +kernel

/-- The inbound segment of TR10. -/
def tr10Seg : Segment :=
  { sport := 1234, dport := 80, seq := 1, ackn := 2, ctrl := 0x5018, win := 0x7210, csum := 0x894C, urgp := 0
    opt := [], pay := [0x47, 0x45, 0x54], src := addrA, dst := addrB }

/-- TR10: `MAX_LEN = 64` and an answer of `n` zero bytes. -/
def tr10 (n : Nat) : State := answering [0x47, 0x45, 0x54] (List.replicate n 0) (withMaxLen 64 (holding tr10Seg))

/-- TR10: 44 bytes fit, 45 do not. -/
theorem test_respond_tr10 :
    after (exec .respond (tr10 44)) (fun t => t.status == 0x00 && t.seg.csum == 0x967D && t.acc == 0x00016981) = true ∧
      after (exec .respond (tr10 45))
        (fun t => t.status == 0x06 && t.flags == 0x00 && t.seg == tr10Seg && t.acc == 0 && t.ckout == 0) = true := by
  decide +kernel

/-- TP1. -/
theorem test_process_tp1 :
    after (exec .process (drawing 0x12345678 (loaded td1)))
      (fun t => t.status == 0x00 && t.flags == 0x05 && t.seg == tr1Reply &&
        t.obuf == [0x00, 0x50, 0x04, 0xD2, 0x12, 0x34, 0x56, 0x78, 0x00, 0x00, 0x03, 0xE9, 0x50, 0x12, 0xFF, 0xFF, 0x2A, 0x19,
          0x00, 0x00]) = true := by decide +kernel

/-- TP4, with stale bytes in `OBUF` and `CKOK` set; TP6 and TP5: with both collaborators silent, since none is asked (U6). -/
theorem test_process_without_answers :
    after (exec .process (silent { loaded ((td1.set 2 0x1F).set 3 0x90) with obuf := [0x01], flags := 0x07 }))
        (fun t => t.status == 0x02 && t.flags == 0x02 && t.obuf == [] && t.seg.dport == 8080) = true ∧
      after (exec .process (silent (loaded (td1.take 19)))) (fun t => t.status == 0x01) = true ∧
      after (exec .process (silent (loaded (td1.set 13 0x10)))) (fun t => t.status == 0x03) = true := by decide

/-- TX1, beside other flags. -/
theorem test_mkseg_tx1 :
    after (exec .mkseg { State.reset with flags := 0x06 }) (fun t => t == { State.reset with flags := 0x07 }) = true := by decide

/-- TX4. -/
theorem test_clear_tx4 : after (exec .clear (holding td1Seg)) (fun t => t == State.reset) = true := by decide

/-- TX5: `FLAGS` included, nothing else changes. -/
theorem test_illegal_tx5 :
    after (exec (.illegal 0x00) (holding td1Seg)) (fun t => t == { holding td1Seg with status := 0x04 }) = true := by decide

/-- TR5. -/
theorem test_unserved_tr5 :
    after (exec (.rclassUnserved 8080 0x5002) (holding { td1Seg with dport := 8080 }))
      (fun t => t.status == 0x02 && t.flags == 0x00 && t.seg == { td1Seg with dport := 8080 }) = true := by decide

/-- TR1. -/
theorem test_syn_tr1 :
    after (exec (.rclassSyn 0x5002) (drawing 0x12345678 (holding td1Seg)))
      (fun t => t.seg == tr1Reply && t.acc == 0x0001D5E5 && t.ckout == 0x2A19 && t.flags == 0x05) = true := by decide +kernel

/-- TR8: SYN with PSH is still a SYN, and the payload is not counted. -/
theorem test_syn_tr8 :
    after (exec .respond (drawing 0x01020304 (holding (tr9Seg 0x500A))))
      (fun t => t.seg.seq == 0x01020304 && t.seg.ackn == 8 && t.seg.ctrl == 0x5012 && t.seg.csum == 0x92A0 &&
        t.seg.pay == []) = true := by decide +kernel

/-- TR9. -/
theorem test_psh_tr9 :
    after (exec (.rclassPsh 0x500C) (answering [0x61, 0x62] [0x78] (holding (tr9Seg 0x500C))))
      (fun t => t.seg.seq == 9 && t.seg.ackn == 9 && t.seg.ctrl == 0x5011 && t.seg.csum == 0x1E9C && t.seg.pay == [0x78]) =
      true := by decide +kernel

/-- TR7: FIN and ACK. -/
theorem test_other_tr7 :
    after (exec (.rclassOther 0x5011) (holding { tr9Seg 0x5011 with seq := 1, ackn := 2, pay := [] }))
      (fun t => t.status == 0x03 && t.flags == 0x00 && t.seg == { tr9Seg 0x5011 with seq := 1, ackn := 2, pay := [] }) =
      true := by decide

/-- TD9 with its header given as the row. -/
theorem test_header_td9 :
    after (exec (.tcpHeader (parseHeader (w64 0x60 0x02))) (loaded (w64 0x60 0x02)))
      (fun t => t.seg.opt == [0x14, 0x15, 0x16, 0x17] && t.seg.pay.length == 40 && t.seg.urgp == 0x1213) = true := by decide

/-- TG1: its pseudo-header words add up to 0x141D. -/
theorem test_pseudo_header_tg1 :
    after (exec (.pseudoHeader addrA addrB 20) State.reset) (fun t => t.acc == 0x141D) = true := by decide +kernel

/-- The word of a table row runs as the very next step (log entries 5 and 16). -/
theorem test_fetched_words_run :
    after (step (State.reset.withFetchWord 8 0x09)) (fun t => t.flags == 0x01 && t.program == []) = true ∧
      after (step (State.reset.withFetchWord 32 0x00505010)) (fun t => t.status == 0x03) = true ∧
      after (step (State.reset.withFetchWord 96 0x0A0000020A00000100060014)) (fun t => t.acc == 0x141D) = true ∧
      after (step (State.reset.withFetchWord 160 0x04D20050000003E8000000005002721020C60000))
        (fun t => t.seg == { td1Seg with src := 0, dst := 0 }) = true := by decide +kernel

/-- Loads at the capacities (R13, R21), and a refused read (R16). -/
theorem test_host_actions :
    after (step { withMaxLen 64 State.reset with program := [.load .ibuf (List.replicate 64 1)] })
        (fun t => t.ibuf.length == 64) = true ∧
      after (step { withMaxLen 64 State.reset with program := [.load .ibuf (List.replicate 65 1)] })
        (fun t => t.ibuf == []) = true ∧
      after (step { State.reset with program := [.read .cmd], got := some (.num 1) }) (fun t => t.got == none) = true := by
  decide

/-- R11: a field of each width is read as what TD1 put there. -/
theorem test_reads_of_td1 :
    (holding td1Seg).view .segSport = some (.num 1234) ∧ (holding td1Seg).view .segDport = some (.num 80) ∧
      (holding td1Seg).view .segCsum = some (.num 0x20C6) ∧ (holding td1Seg).view .segSrc = some (.num 0x0A000002) ∧
      (holding td1Seg).view .flags = some (.num 1) := by decide

/-! ### Witnesses: the hypotheses of each statement that has some, met together, one clause at a time -/

/-- The inputs of TR1. -/
def tr1Inputs : Inputs := { rand := some 0x12345678, httpUp := true }

/-- After reset, with the host about to load a full buffer. -/
def aboutToLoad : State := { withMaxLen 64 State.reset with program := [.load .ibuf (List.replicate 64 0xFF)] }

/-- After reset, with the host about to write a code. -/
def aboutToRun (code : Byte) (s : State) : State := { s with program := [.command code tr1Inputs] }

theorem witness_EveryStepKeepsTheInvariant :
    aboutToLoad.Inv ∧ (∃ t, step aboutToLoad = .next t) ∧ (aboutToRun 0x08 (loaded td1)).Inv ∧
      ∃ t, step (aboutToRun 0x08 (loaded td1)) = .next t ∧ (t.status == 0x00) = true :=
  ⟨by decide, ⟨_, rfl⟩, by decide, exists_of_after (by decide +kernel)⟩

theorem witness_StepRunsTheDecodedCommand :
    (aboutToRun 0x0A State.reset).program = .command 0x0A tr1Inputs :: [] ∧ decode .cmd8 [0x0A] = .ok .clear ∧
      (aboutToRun 0x0B State.reset).program = .command 0x0B tr1Inputs :: [] ∧ decode .cmd8 [0x0B] = .ok (.illegal 0x0B) ∧
      ({ State.reset with program := [.read .cmd] } : State).program = .read .cmd :: [] := by decide

theorem witness_FetchedTableWordIsExecuted :
    decodeTableWord 8 0xFF = some (.illegal 0xFF) ∧ decodeTableWord 32 0x0050FFFF = some (.rclassSyn 0xFFFF) ∧
      decodeTableWord 96 0x00060000 = some (.pseudoHeader 0 0 0) ∧
      decodeTableWord 160 0 = some (.tcpHeader Segment.zero.toHeader) := by decide

theorem witness_CommandCodesSelectTheirCommands :
    ((0x00 : Byte) = 0 ∨ 0x0B ≤ (0x00 : Byte).toNat) ∧ ((0x0B : Byte) = 0 ∨ 0x0B ≤ (0x0B : Byte).toNat) ∧
      ((0xFF : Byte) = 0 ∨ 0x0B ≤ (0xFF : Byte).toNat) := by decide

theorem witness_DecodeOfEncodeIsTheInstruction :
    Instr.decode.wf = true ∧ Instr.encode.wf = true ∧ Instr.sum.wf = true ∧ Instr.compile.wf = true ∧ Instr.ckgen.wf = true ∧
      Instr.ckverify.wf = true ∧ Instr.respond.wf = true ∧ Instr.process.wf = true ∧ Instr.mkseg.wf = true ∧
      Instr.clear.wf = true ∧ (Instr.illegal 0x0B).wf = true ∧ (Instr.rclassUnserved 0x5000 0).wf = true ∧
      (Instr.rclassSyn 0xFFFF).wf = true ∧ (Instr.rclassPsh 0xFFFD).wf = true ∧ (Instr.rclassOther 0xFFF5).wf = true ∧
      (Instr.tcpHeader td1Seg.toHeader).wf = true ∧ (Instr.pseudoHeader addrA addrB 0xFFFF).wf = true := by decide

theorem witness_EncodeOfDecodeIsTheBytes :
    decode .cmd8 [0x08] = .ok .process ∧ decode .rkey32 [0x00, 0x50, 0xFF, 0xF5] = .ok (.rclassOther 0xFFF5) ∧
      decode .psh96 [0xFF, 0xFF, 0xFF, 0xFF, 0, 0, 0, 0, 0, 6, 0xFF, 0xFF] = .ok (.pseudoHeader 0xFFFFFFFF 0 0xFFFF) ∧
      decode .hdr160 td1 = .ok (.tcpHeader td1Seg.toHeader) := by decide

theorem witness_HeaderBitPositions : 2 ^ 160 - 1 < 2 ^ 160 ∧ (0 : Nat) < 2 ^ 160 := by decide

theorem witness_ReplyClassesAreTheTableRows : (0xFFFF : Half) &&& 0x000A = (0x000A : Half) &&& 0x000A := by decide

/-- TD11, TD16: the longest header, and the shortest. -/
theorem witness_BuffersDecodeExactlyWhenLengthsAllow :
    (decodeSeg ((w64 0xF0 0x02).take 60) addrA addrB).isSome = true ∧ (decodeSeg (w64 0x50 0x02) addrA addrB).isSome = true ∧
      Decodable ((w64 0xF0 0x02).take 60) ∧ Decodable td1 := by decide

theorem witness_DecodedFieldsAreTheBigEndianBytes : 20 ≤ td1.length := by decide

/-- The shortest options and the longest. -/
theorem witness_DecodeUndoesEncode :
    td1Seg.WellFormed ∧ te2Seg.WellFormed ∧
      ({ te2Seg with ctrl := 0xF002, opt := List.replicate 40 0xAA } : Segment).WellFormed := by decide

theorem witness_EncodeUndoesDecode : decodeSeg td1 addrA addrB = some td1Seg := by decide

/-- TE4 decodes to another cut, TE5 does not decode. -/
theorem witness_IllFormedSegmentsAreRecut :
    (({ te2Seg with ctrl := 0x5002 } : Segment).opt.length ≤ 40 ∧ ¬ ({ te2Seg with ctrl := 0x5002 } : Segment).WellFormed) ∧
      (({ te2Seg with ctrl := 0x7002 } : Segment).opt.length ≤ 40 ∧ ¬ ({ te2Seg with ctrl := 0x7002 } : Segment).WellFormed) := by
  decide

/-- TD3, TD7, TD12 for the three causes of truncation, TD1 and TD11 where the bounds meet. -/
theorem witness_DecodeCommand :
    (loaded (td1.take 19)).ibuf.length < 20 ∧ declaredLen (loaded (w64 0x40 0x02)).ibuf < 20 ∧
      (loaded ((w64 0xF0 0x02).take 59)).ibuf.length < declaredLen (loaded ((w64 0xF0 0x02).take 59)).ibuf ∧
      (20 ≤ (loaded td1).ibuf.length ∧ 20 ≤ declaredLen (loaded td1).ibuf ∧
        declaredLen (loaded td1).ibuf ≤ (loaded td1).ibuf.length) ∧
      Decodable (loaded ((w64 0xF0 0x02).take 60)).ibuf := by decide

/-- A segment of 64 bytes under a capacity of 63 and of 64. -/
theorem witness_EncodeCommand :
    State.reset.flags.getLsbD 0 = false ∧
      ((withMaxLen 63 (holding { td1Seg with pay := List.replicate 44 0 })).flags.getLsbD 0 = true ∧
        20 + ([] : Bytes).length + (List.replicate 44 (0 : Byte)).length > 63) ∧
      ((withMaxLen 64 (holding { td1Seg with pay := List.replicate 44 0 })).flags.getLsbD 0 = true ∧
        20 + ([] : Bytes).length + (List.replicate 44 (0 : Byte)).length ≤ 64) := by decide

theorem witness_HeaderRowIsDecodeOfThatHeader :
    (loaded []).ibuf.length < 20 ∧ (0x4002 : Half).toNat / 4096 < 5 ∧
      (loaded td1).ibuf.length < 4 * ((0x6002 : Half).toNat / 4096) ∧
      (20 ≤ (loaded td1).ibuf.length ∧ 5 ≤ td1Seg.ctrl.toNat / 4096 ∧ 4 * (td1Seg.ctrl.toNat / 4096) ≤ (loaded td1).ibuf.length) := by
  decide

theorem witness_SumIsTheSumOfBigEndianWords : ([0x01, 0x02] : Bytes).length % 2 = 0 := by decide

theorem witness_FoldIsTheResidueModulo65535 :
    0xFFFF ≤ 0xFFFF ∧ 0x10000 > 0xFFFF ∧ 0 < 1 ∧ (0xFFFFFFFF < 2 ^ 32 ∧ 0xFFFFFFFF > 0xFFFF) := by decide

/-- A segment of exactly 65535 bytes, and one of a byte more. -/
def longSeg (n : Nat) : Segment := { td1Seg with pay := List.replicate n 0 }

theorem longSeg_opt (n : Nat) : (longSeg n).opt.length = 0 := rfl

theorem longSeg_pay (n : Nat) : (longSeg n).pay.length = n := List.length_replicate

/-- The hypothesis of every statement about a segment's sum, at its bound. -/
theorem witness_segment_of_65535_bytes : 20 + (longSeg 65515).opt.length + (longSeg 65515).pay.length ≤ 65535 := by
  rw [longSeg_opt, longSeg_pay]

theorem witness_SegmentSumTermByTerm :
    20 + (longSeg 65515).opt.length + (longSeg 65515).pay.length ≤ 65535 ∧ (longSeg 65515).opt.length % 2 = 0 :=
  ⟨witness_segment_of_65535_bytes, rfl⟩

theorem witness_PseudoHeaderBytes : 20 + (longSeg 65515).opt.length + (longSeg 65515).pay.length ≤ 65535 :=
  witness_segment_of_65535_bytes

theorem witness_GeneratedChecksumRange : 20 + (longSeg 65515).opt.length + (longSeg 65515).pay.length ≤ 65535 :=
  witness_segment_of_65535_bytes

theorem witness_ValidityFoldsToAllOnes : 20 + (longSeg 65515).opt.length + (longSeg 65515).pay.length ≤ 65535 :=
  witness_segment_of_65535_bytes

theorem witness_GeneratedChecksumIsValid : 20 + (longSeg 65515).opt.length + (longSeg 65515).pay.length ≤ 65535 :=
  witness_segment_of_65535_bytes

/-- TG5 and TV5: a segment whose generated checksum is 0x0000, with 0xFFFF in its place. -/
theorem witness_WhichChecksumsValidate :
    20 + td1Seg.opt.length + td1Seg.pay.length ≤ 65535 ∧ compile (segSum0 { td1Seg with seq := 0x000024AE }) = 0x0000 ∧
      ckValid { td1Seg with seq := 0x000024AE, csum := 0xFFFF } = true := by decide +kernel

theorem witness_SumCommand : (loaded td1).ibuf.length ≤ 65535 := by decide

theorem witness_CompileCommand : ({ State.reset with acc := 0xFFFF0001 } : State).acc = 0xFFFF0001 := by decide

theorem witness_CkgenCommand :
    State.reset.flags.getLsbD 0 = false ∧
      ((holding (longSeg 65516)).flags.getLsbD 0 = true ∧
        20 + (longSeg 65516).opt.length + (longSeg 65516).pay.length > 65535) ∧
      ((holding (longSeg 65515)).flags.getLsbD 0 = true ∧
        20 + (longSeg 65515).opt.length + (longSeg 65515).pay.length ≤ 65535) := by
  refine ⟨by decide, ⟨by decide, ?_⟩, ⟨by decide, witness_segment_of_65535_bytes⟩⟩
  rw [longSeg_opt, longSeg_pay]
  decide

/-- The three outcomes of the flag and the length are those of CKGEN's witness; TV1 and TV2 part the last. -/
theorem witness_CkverifyCommand :
    ((holding td1Seg).flags.getLsbD 0 = true ∧ 20 + td1Seg.opt.length + td1Seg.pay.length ≤ 65535 ∧
        compile (segSum td1Seg) = 0) ∧
      compile (segSum { td1Seg with csum := 0x20C7 }) ≠ 0 := by decide +kernel

theorem witness_RespondToSyn :
    (drawing 0x12345678 (holding td1Seg)).Inv ∧ (holding td1Seg).flags.getLsbD 0 = true ∧ td1Seg.dport = 80 ∧
      td1Seg.ctrl.getLsbD 1 = true ∧ (drawing 0x12345678 (holding td1Seg)).inputs.rand = some 0x12345678 ∧
      td1Seg.WellFormed := by decide

/-- TR10 (a): the longest answer that fits 64 bytes. -/
theorem witness_RespondToPsh :
    (tr10 44).Inv ∧ (tr10 44).flags.getLsbD 0 = true ∧ (tr10 44).seg.dport = 80 ∧ (tr10 44).seg.ctrl.getLsbD 1 = false ∧
      (tr10 44).seg.ctrl.getLsbD 3 = true ∧ (tr10 44).inputs.httpUp = true ∧
      20 + (httpGen (tr10 44).cfg (tr10 44).seg.pay).length ≤ (tr10 44).cfg.maxLen := by decide

/-- TR10 (b): one byte more. -/
theorem witness_RespondToPshTooLong :
    (tr10 45).flags.getLsbD 0 = true ∧ (tr10 45).seg.dport = 80 ∧ (tr10 45).seg.ctrl.getLsbD 1 = false ∧
      (tr10 45).seg.ctrl.getLsbD 3 = true ∧ (tr10 45).inputs.httpUp = true ∧
      20 + (httpGen (tr10 45).cfg (tr10 45).seg.pay).length > (tr10 45).cfg.maxLen := by decide

theorem witness_RespondWithoutReply :
    (holding (tr9Seg 0x5011)).flags.getLsbD 0 = true ∧ ({ td1Seg with dport := 0x5000 } : Segment).dport ≠ 80 ∧
      ((tr9Seg 0x5011).dport = 80 ∧ (tr9Seg 0x5011).ctrl.getLsbD 1 = false ∧ (tr9Seg 0x5011).ctrl.getLsbD 3 = false) := by decide

theorem witness_RespondWithoutSegment : State.reset.flags.getLsbD 0 = false := by decide

/-- One state for each row of R58, TR10's two for the row of class PSH, and one without a segment. -/
theorem witness_ReplyClassRowsComplete :
    ((holding { td1Seg with dport := 8080 }).Inv ∧ (holding { td1Seg with dport := 8080 }).flags.getLsbD 0 = true ∧
        ({ td1Seg with dport := 8080 } : Segment).dport ≠ 80) ∧
      ((holding td1Seg).Inv ∧ td1Seg.dport = 80 ∧ td1Seg.ctrl.getLsbD 1 = true ∧ (holding td1Seg).inputs.rand = some 0) ∧
      ((tr10 44).Inv ∧ (tr10 44).seg.ctrl.getLsbD 1 = false ∧ (tr10 44).seg.ctrl.getLsbD 3 = true ∧
        20 + (httpGen (tr10 44).cfg (tr10 44).seg.pay).length ≤ (tr10 44).cfg.maxLen) ∧
      ((tr10 45).Inv ∧ 20 + (httpGen (tr10 45).cfg (tr10 45).seg.pay).length > (tr10 45).cfg.maxLen) ∧
      ((holding (tr9Seg 0x5011)).Inv ∧ (tr9Seg 0x5011).ctrl.getLsbD 1 = false ∧ (tr9Seg 0x5011).ctrl.getLsbD 3 = false) ∧
      State.reset.flags.getLsbD 0 = false := by decide

/-- Every case of the policy: no segment, no reply, a reply that fits, one that does not (TR10, PSH), and a SYN (TR1). -/
theorem witness_RespondFollowsThePurePolicy :
    ((tr10 45).seg.ctrl.getLsbD 1 = false ∧ (tr10 45).inputs.httpUp = true) ∧
      (td1Seg.ctrl.getLsbD 1 = true ∧ (drawing 5 (holding td1Seg)).inputs.rand = some 5 ∧
        ∃ out, respondPolicy Config.standard td1Seg 5 (httpGen Config.standard) = [out]) ∧ State.reset.flags.getLsbD 0 = false ∧
      (tr10 45).flags.getLsbD 0 = true ∧ respondPolicy (tr10 45).cfg (tr9Seg 0x5011) 0 (httpGen (tr10 45).cfg) = [] ∧
      (∃ out, respondPolicy (tr10 45).cfg (tr10 45).seg 0 (httpGen (tr10 45).cfg) = [out] ∧
        20 + out.opt.length + out.pay.length > (tr10 45).cfg.maxLen) ∧
      (∃ out, respondPolicy (tr10 44).cfg (tr10 44).seg 0 (httpGen (tr10 44).cfg) = [out] ∧
        20 + out.opt.length + out.pay.length ≤ (tr10 44).cfg.maxLen) := by
  refine ⟨by decide, ⟨by decide, by decide, _, rfl⟩, by decide, by decide, by decide, ⟨_, rfl, ?_⟩, ⟨_, rfl, ?_⟩⟩ <;>
    decide +kernel

/-- A SYN segment and a PSH segment, each answered. -/
theorem witness_EveryReplyIsProper :
    ((holding td1Seg).Inv ∧ (∃ t, exec .respond (holding td1Seg) = .next t ∧ (t.status == 0x00) = true) ∧
        td1Seg.opt.length % 4 = 0 ∧ td1Seg.sport ≠ 80) ∧
      (tr10 44).Inv ∧ (∃ t, exec .respond (tr10 44) = .next t ∧ (t.status == 0x00) = true) :=
  ⟨⟨by decide, exists_of_after (by decide +kernel), by decide, by decide⟩, by decide, exists_of_after (by decide +kernel)⟩

/-- Another draw on the PSH path; a silent generator on the SYN path; both silent on class OTHER. -/
theorem witness_CollaboratorsMatterOnlyOnTheirPath :
    (classify (replyKey (tr10 44).seg.dport (tr10 44).seg.ctrl) = .psh ∧
        ∃ t, exec .respond (tr10 44) = .next t ∧ (t.status == 0x00) = true) ∧
      (classify (replyKey td1Seg.dport td1Seg.ctrl) = .syn ∧
        ∃ t, exec .respond (holding td1Seg) = .next t ∧ (t.status == 0x00) = true) ∧
      (classify (replyKey 80 0x5011) = .other ∧
        ∃ t, exec .respond (holding (tr9Seg 0x5011)) = .next t ∧ (t.status == 0x03) = true) :=
  ⟨⟨by decide, exists_of_after (by decide +kernel)⟩, ⟨by decide, exists_of_after (by decide +kernel)⟩,
    ⟨by decide, exists_of_after (by decide +kernel)⟩⟩

/-- The bytes of TR10. -/
def tr10Bytes : Bytes :=
  [0x04, 0xD2, 0x00, 0x50, 0x00, 0x00, 0x00, 0x01, 0x00, 0x00, 0x00, 0x02, 0x50, 0x18, 0x72, 0x10, 0x89, 0x4C, 0x00, 0x00, 0x47,
    0x45, 0x54]

/-- TP6, TP4, TP8 and TR10 (a) for the four cases, TP1 for a SYN. -/
theorem witness_ProcessCommand :
    (tr10Seg.ctrl.getLsbD 1 = false ∧ (tr10 44).inputs.httpUp = true) ∧
      (td1Seg.ctrl.getLsbD 1 = true ∧ (drawing 5 (loaded td1)).inputs.rand = some 5 ∧ decodeSeg td1 addrA addrB = some td1Seg ∧
        ∃ out, respondPolicy Config.standard td1Seg 5 (httpGen Config.standard) = [out]) ∧
      decodeSeg (td1.take 19) addrA addrB = none ∧
      (∃ g, decodeSeg ((td1.set 2 0x1F).set 3 0x90) addrA addrB = some g ∧
        respondPolicy (tr10 44).cfg g 0 (httpGen (tr10 44).cfg) = []) ∧
      decodeSeg tr10Bytes addrA addrB = some tr10Seg ∧
      (∃ out, respondPolicy (tr10 45).cfg tr10Seg 0 (httpGen (tr10 45).cfg) = [out] ∧
        20 + out.opt.length + out.pay.length > (tr10 45).cfg.maxLen) ∧
      (∃ out, respondPolicy (tr10 44).cfg tr10Seg 0 (httpGen (tr10 44).cfg) = [out] ∧
        20 + out.opt.length + out.pay.length ≤ (tr10 44).cfg.maxLen) := by
  refine ⟨by decide, ⟨by decide, by decide, by decide, _, rfl⟩, by decide, ⟨_, rfl, by decide⟩, by decide, ⟨_, rfl, ?_⟩,
      ⟨_, rfl, ?_⟩⟩ <;>
    decide +kernel

theorem witness_ProcessEqualsTheHostSequence :
    ∃ t, step { loaded td1 with program := [.command 0x08 tr1Inputs] } = .next t ∧ (t.status == 0x00) = true :=
  exists_of_after (by decide +kernel)

/-- Two states with the same buffer and addresses, and nothing else alike; a reply and a truncation. -/
theorem witness_ProcessDependsOnItsOperandsOnly :
    (∃ t, exec .process (loaded td1) = .next t ∧ (t.status == 0x00) = true) ∧
      (∃ t, exec .process (loaded []) = .next t ∧ (t.status == 0x01) = true) ∧
      ({ loaded td1 with acc := 7, flags := 0x07, seg := te2Seg, obuf := td1 } : State).ibuf = (loaded td1).ibuf :=
  ⟨exists_of_after (by decide +kernel), exists_of_after (by decide +kernel), rfl⟩

theorem witness_ProcessedReplyDecodesAndVerifies :
    (loaded td1).Inv ∧ ∃ t, exec .process (loaded td1) = .next t ∧ (t.status == 0x00) = true :=
  ⟨by decide, exists_of_after (by decide +kernel)⟩

theorem witness_PlatformResetLeavesWhatClearLeaves :
    ({ holding td1Seg with program := [.reset] } : State).program = .reset :: [] := by decide

theorem witness_IllegalCodesOnlySetStatus :
    ((0x00 : Byte) = 0x00 ∨ 0x0B ≤ (0x00 : Byte).toNat) ∧ ((0xFF : Byte) = 0x00 ∨ 0x0B ≤ (0xFF : Byte).toNat) := by decide

/-- Each load at its capacity and a byte beyond it. -/
theorem witness_HostLoads :
    aboutToLoad.program = .load .ibuf (List.replicate 64 0xFF) :: [] ∧
      (List.replicate 64 (0xFF : Byte)).length ≤ aboutToLoad.cfg.maxLen ∧
      ¬ (List.replicate 65 (0xFF : Byte)).length ≤ aboutToLoad.cfg.maxLen ∧
      (List.replicate 40 (0 : Byte)).length ≤ 40 ∧ ¬ (List.replicate 41 (0 : Byte)).length ≤ 40 ∧
      (List.replicate 44 (0 : Byte)).length ≤ aboutToLoad.cfg.maxLen - 20 ∧
      ¬ (List.replicate 45 (0 : Byte)).length ≤ aboutToLoad.cfg.maxLen - 20 ∧
      ({ State.reset with program := [.load .segOpt []] } : State).program = .load .segOpt [] :: [] ∧
      ({ State.reset with program := [.load .segPay []] } : State).program = .load .segPay [] :: [] ∧
      ({ State.reset with program := [.copy] } : State).program = .copy :: [] := by decide

theorem witness_HostWritesOfScalars :
    ({ State.reset with program := [.set16 .segCtrl 0x5002] } : State).program = .set16 .segCtrl 0x5002 :: [] ∧
      ({ State.reset with program := [.set32 .acc 0xFFFFFFFF] } : State).program = .set32 .acc 0xFFFFFFFF :: [] := by decide

theorem witness_ReadsHaveNoSideEffect :
    ({ holding td1Seg with program := [.read .flags] } : State).program = .read .flags :: [] ∧ (holding td1Seg).Inv ∧
      (holding td1Seg).program = [] ∧ (loaded td1).Inv ∧ (loaded td1).ibuf.length = 20 := by decide

theorem witness_InstructionsWriteOnlyTheirRegisters :
    (∃ t, exec .encode (holding td1Seg) = .next t) ∧ Group.ibuf ∉ writes .process ∧ Group.ckok ∉ writes .process :=
  ⟨⟨_, rfl⟩, by decide, by decide⟩

theorem witness_OutcomesAreThoseOfTheTable : ∃ t, exec .respond State.reset = .next t ∧ (t.status == 0x05) = true :=
  exists_of_after (by decide)

theorem witness_NoPartialSegmentIsForwarded :
    ∃ t, exec .process { loaded (td1.take 19) with obuf := td1 } = .next t ∧ (t.status != 0x00) = true :=
  exists_of_after (by decide)

/-- Connected after reset, with a command that is given answers; and each instruction that asks a silent collaborator. -/
theorem witness_EveryCommandCompletes :
    State.reset.Connected ∧ (aboutToRun 0x07 State.reset).Connected ∧
      (∀ c a, HostAction.command c a ∈ (aboutToRun 0x07 State.reset).program → a.rand.isSome = true ∧ a.httpUp = true) ∧
      ((silent (holding td1Seg)).flags.getLsbD 0 = true ∧ Unanswered (silent (holding td1Seg)).inputs td1Seg .randomSourceSilent ∧
        exec .respond (silent (holding td1Seg)) = .fault .randomSourceSilent) ∧
      (Unanswered (silent (holding tr10Seg)).inputs tr10Seg .httpGeneratorSilent ∧
        exec .respond (silent (holding tr10Seg)) = .fault .httpGeneratorSilent) ∧
      (decodeSeg td1 addrA addrB = some td1Seg ∧ exec .process (silent (loaded td1)) = .fault .randomSourceSilent) ∧
      exec (.rclassSyn 0x5002) (silent (holding td1Seg)) = .fault .randomSourceSilent ∧
      exec (.rclassPsh 0x5018) (silent (holding tr10Seg)) = .fault .httpGeneratorSilent := by
  refine ⟨by decide, by decide, ?_, ⟨by decide, ⟨rfl, rfl, rfl⟩, rfl⟩, ⟨⟨rfl, rfl, rfl, rfl⟩, rfl⟩, ⟨by decide, rfl⟩, rfl, rfl⟩
  intro c a h
  simp only [aboutToRun, List.mem_singleton, HostAction.command.injEq] at h
  obtain ⟨-, rfl⟩ := h
  decide

theorem witness_CommandsAreIdempotent :
    (∃ t, exec .decode (loaded td1) = .next t) ∧ ∃ t, exec .process (loaded td1) = .next t ∧ (t.status == 0x00) = true :=
  ⟨⟨_, rfl⟩, exists_of_after (by decide +kernel)⟩

end Sys2Proof.Tests
end

section
/-! The commands where they find nothing to work on (R23): `SEG` without a segment, an `IBUF` shorter than a header, a zero
`ACC`; and reset as such a state. -/

namespace Sys2Proof.Machine

variable (s : State)

/-! ### Without a segment -/

theorem exec_encode_of_not_segv (h : s.segv = false) : exec .encode s = .next (s.setStatus .noSegment) := by
  simp [exec, execEncode, encodeStage, h]

theorem exec_ckgen_of_not_segv (h : s.segv = false) : exec .ckgen s = .next (s.setStatus .noSegment) := by
  simp [exec, execCkgen, h]

theorem exec_ckverify_of_not_segv (h : s.segv = false) :
    exec .ckverify s = .next ((s.setCkok false).setStatus .noSegment) := by
  simp [exec, execCkverify, h]

theorem exec_respond_of_not_segv (h : s.segv = false) :
    exec .respond s = .next ((s.setReply false).setStatus .noSegment) := by
  simp [exec, execRespond, respondStage, h]

/-- Every command that reads `SEG` reports `NO_SEGMENT` when `SEGV` is clear (R23). -/
theorem readers_of_seg_end_noSegment (h : s.segv = false) :
    ∀ i ∈ [Instr.encode, .ckgen, .ckverify, .respond], ∃ t, exec i s = .next t ∧ t.status = statusCode .noSegment := by
  simp only [List.forall_mem_cons]
  exact ⟨⟨_, exec_encode_of_not_segv s h, rfl⟩, ⟨_, exec_ckgen_of_not_segv s h, rfl⟩,
    ⟨_, exec_ckverify_of_not_segv s h, rfl⟩, ⟨_, exec_respond_of_not_segv s h, rfl⟩, List.forall_mem_nil _⟩

/-! ### DECODE of a short buffer, SUM and COMPILE -/

theorem decodeSeg_of_short (B : Bytes) (a b : Word) (h : B.length < 20) : decodeSeg B a b = none := by
  obtain ⟨-, e⟩ | ⟨hl, -⟩ := decodeSeg_cases B a b
  · exact e
  · omega

theorem exec_decode_of_short (h : s.ibuf.length < 20) :
    exec .decode s = .next ((s.setSegv false).setStatus .truncated) := by
  simp [exec, execDecode, decodeStage, takeDecoded, decodeSeg_of_short _ _ _ h]

theorem exec_sum_eq : exec .sum s = .next ((s.setAcc (sum s.ibuf)).setStatus .ok) := rfl

theorem exec_compile_eq : exec .compile s = .next ((s.setCkout (compile s.acc.toNat)).setStatus .ok) := rfl

/-- A value of 16 bits needs no pass of the loop (R81). -/
theorem fold_of_le (v : Nat) (h : v ≤ 0xFFFF) : fold v = v := by
  rw [fold]
  cases v with
  | zero => rfl
  | succ n => simp [foldPasses, Nat.not_lt.mpr h]

theorem compile_of_le (v : Nat) (h : v ≤ 0xFFFF) : compile v = BitVec.ofNat 16 (0xFFFF - v) := by
  rw [compile, fold_of_le v h]

/-! ### Reset -/

@[simp] theorem reset_segv : State.reset.segv = false := segv_clearRegs State.reset

/-- Settles O1: reset holds no segment and an empty `IBUF`, where the lemmas above give the ends of the commands. -/
theorem resetGivesEveryRegisterItsValue : Obligations.ResetGivesEveryRegisterItsValue := by
  refine ⟨⟨rfl, rfl, rfl, rfl, rfl, rfl, rfl, rfl⟩, ⟨rfl, rfl, rfl, rfl, rfl, rfl, rfl, rfl, rfl, rfl, rfl, rfl⟩,
    readers_of_seg_end_noSegment _ reset_segv, ⟨_, exec_decode_of_short _ Nat.ofNat_pos, rfl⟩,
    ⟨_, exec_sum_eq _, rfl, ?acc⟩, ⟨_, exec_compile_eq _, rfl, ?ckout⟩⟩
  case acc => exact congrArg (BitVec.ofNat 32) sum_nil
  case ckout => exact compile_of_le 0 (Nat.zero_le _)

end Sys2Proof.Machine
end

section
/-! Command codes (R53, R54): what a byte of `CMD` decodes to, and what an illegal one does. -/

namespace Sys2Proof.Machine

/-- A code that is none of the ten falls through to the last row (R54). -/
theorem decodeCmd_of_illegalCode (c : Byte) (h : illegalCode c) : decodeCmd c = .illegal c := by
  obtain rfl | h := h
  · rfl
  · rw [decodeCmd]
    split
    case h_11 => rfl
    all_goals omega

theorem decode_cmd8_of_illegalCode (c : Byte) (h : illegalCode c) : decode .cmd8 [c] = .ok (.illegal c) :=
  congrArg Except.ok (decodeCmd_of_illegalCode c h)

theorem exec_illegal_eq (c : Byte) (s : State) : exec (.illegal c) s = .next (s.setStatus .illegalCmd) := rfl

/-- Settles O6: the ten codes by the rows of `decodeCmd`, every other one by its last row. -/
theorem commandCodesSelectTheirCommands : Obligations.CommandCodesSelectTheirCommands :=
  ⟨rfl, rfl, rfl, rfl, rfl, rfl, rfl, rfl, rfl, rfl, decode_cmd8_of_illegalCode⟩

/-- Settles O51: the illegal row ends with its outcome and makes no other change. -/
theorem illegalCodesOnlySetStatus : Obligations.IllegalCodesOnlySetStatus :=
  fun c h => ⟨decode_cmd8_of_illegalCode c h, exec_illegal_eq c⟩

end Sys2Proof.Machine
end

section
/-! The header length (R48) and the buffers it lets decode (R49, R66). -/

namespace Sys2Proof.Machine

theorem headerLenBytes_eq_div (ctrl : Half) : headerLenBytes ctrl = 4 * (ctrl.toNat / 4096) := by
  rw [headerLenBytes, doff_eq_div]

/-- The mask keeps the nibble in place, so the shift by 10 leaves it times four (R48). -/
theorem headerLenBytes_eq_masked (ctrl : Half) : headerLenBytes ctrl = ((ctrl &&& 0xF000) >>> 10).toNat := by
  have mask : ctrl &&& (0xF000 : Half) = (ctrl >>> 12) <<< 12 := by
    ext i hi
    interval_cases i <;> simp
  have := ctrl.isLt
  rw [headerLenBytes_eq_div, mask]
  simp only [BitVec.toNat_ushiftRight, BitVec.toNat_shiftLeft, Nat.shiftRight_eq_div_pow, Nat.shiftLeft_eq]
  omega

/-- The bare formula `ctrl >> 10` also keeps bits 11:10 (R48, conflict C1). -/
theorem shiftRight_ten_toNat (ctrl : Half) : (ctrl >>> 10).toNat = headerLenBytes ctrl + ctrl.toNat / 1024 % 4 := by
  rw [headerLenBytes_eq_div, BitVec.toNat_ushiftRight, Nat.shiftRight_eq_div_pow]
  omega

/-- Settles O11: by the two forms of the header length and what the bare formula adds to it. -/
theorem headerLengthIsTheMaskedNibble : Obligations.HeaderLengthIsTheMaskedNibble := by
  intro ctrl
  have len : headerLenBytes ctrl = 4 * doff ctrl := rfl
  have nibble := doff_lt ctrl
  have bare := shiftRight_ten_toNat ctrl
  exact ⟨headerLenBytes_eq_div ctrl, headerLenBytes_eq_masked ctrl, by omega, by omega, bare, by omega⟩

/-- `DOFF` of a parsed header is the high nibble of byte 12 (R50, R126). -/
theorem headerLenBytes_parseHeader (B : Bytes) : headerLenBytes (parseHeader B).ctrl = declaredLen B :=
  congrArg (4 * ·) (doff_be16 B 12)

/-- What decodes is decodable, and its segment is cut at offset 20 and at the declared header length (R66). -/
theorem decodeSeg_eq_some (B : Bytes) (a b : Word) (g : Segment) (h : decodeSeg B a b = some g) :
    Decodable B ∧ g.toHeader = parseHeader B ∧ g.opt = slice B 20 (declaredLen B) ∧
      g.pay = slice B (declaredLen B) B.length ∧ g.src = a ∧ g.dst = b := by
  obtain ⟨-, e⟩ | ⟨hl, hmin, hmax, e⟩ := decodeSeg_cases B a b <;> rw [e] at h <;> cases h
  exact ⟨⟨hl, hmin, hmax⟩, rfl, rfl, rfl, rfl, rfl⟩

theorem exists_decodeSeg_iff (B : Bytes) (a b : Word) : (∃ g, decodeSeg B a b = some g) ↔ Decodable B := by
  constructor
  · rintro ⟨g, h⟩
    exact (decodeSeg_eq_some B a b g h).1
  · rintro ⟨hl, hmin, hmax⟩
    obtain ⟨short, -⟩ | ⟨-, -, -, e⟩ := decodeSeg_cases B a b
    · simp only [declaredLen, byteAt] at *
      omega
    · exact ⟨_, e⟩

/-- The lengths the options of a decoded segment can have: the multiples of four up to 40 (R49). -/
theorem four_mul_mem_optLens (k : Nat) (h : k ≤ 10) : 4 * k ∈ [0, 4, 8, 12, 16, 20, 24, 28, 32, 36, 40] :=
  List.mem_map_of_mem (f := (4 * ·)) (l := List.range 11) (List.mem_range.mpr (Nat.lt_succ_of_le h))

/-- Settles O13: a decoded segment is cut at the declared header length, which is `4*DOFF` with `DOFF` between 5 and 15. -/
theorem buffersDecodeExactlyWhenLengthsAllow : Obligations.BuffersDecodeExactlyWhenLengthsAllow := by
  refine fun B a b => ⟨exists_decodeSeg_iff B a b, fun g h => ?_⟩
  obtain ⟨⟨-, hmin, hmax⟩, hd, opt, pay, -, -⟩ := decodeSeg_eq_some B a b g h
  have len : headerLenBytes g.ctrl = declaredLen B := by rw [hd, headerLenBytes_parseHeader]
  have optLen : g.opt.length = declaredLen B - 20 := by rw [opt, slice_length B _ _ hmax]
  have payLen : g.pay.length = B.length - declaredLen B := by rw [pay, slice_length B _ _ le_rfl]
  have four : 4 * doff g.ctrl = declaredLen B := len
  have nibble := doff_lt g.ctrl
  refine ⟨optLen, payLen, len, by omega, by omega, ?_⟩
  have words : g.opt.length = 4 * (doff g.ctrl - 5) := by omega
  rw [words]
  exact four_mul_mem_optLens _ (by omega)

end Sys2Proof.Machine
end

section
/-! The eight fields as the bytes at their offsets (R50, R65), and back (R68). -/

namespace Sys2Proof.Machine

/-- `be16` as the number of R30. -/
theorem be16_toNat (B : Bytes) (o : Nat) :
    (be16 B o).toNat = (B.getD o 0).toNat * 256 + (B.getD (o + 1) 0).toNat :=
  append_bytes_toNat _ _

/-- `be32` as the number of R30. -/
theorem be32_toNat (B : Bytes) (o : Nat) :
    (be32 B o).toNat = (B.getD o 0).toNat * 2 ^ 24 + (B.getD (o + 1) 0).toNat * 2 ^ 16 +
      (B.getD (o + 2) 0).toNat * 2 ^ 8 + (B.getD (o + 3) 0).toNat := by
  have low : (be16 B (o + 2)).toNat = (B.getD (o + 2) 0).toNat * 256 + (B.getD (o + 3) 0).toNat := be16_toNat B (o + 2)
  rw [be32, append_halves_toNat, be16_toNat, low]
  omega

/-- The first `n` bytes of a sequence, read one by one. -/
theorem map_byteAt_range (B : Bytes) (n : Nat) (h : n ≤ B.length) : (List.range n).map (byteAt B) = B.take n := by
  refine List.ext_getElem (by simp [h]) fun i hi _ => ?_
  have : i < B.length := by simp at hi; omega
  simp [byteAt, this]

/-- `HeaderBytes` of a parsed header is the first 20 bytes of the buffer: each field is written back where it was read. -/
theorem headerBytes_parseHeader (B : Bytes) (h : 20 ≤ B.length) : headerBytes (parseHeader B) = B.take 20 := by
  rw [← map_byteAt_range B 20 h]
  simp only [headerBytes, parseHeader, enc16_be16, enc32_be32]
  rfl

/-- Settles O14: each field is one `be16` or `be32`, read as a number. -/
theorem decodedFieldsAreTheBigEndianBytes : Obligations.DecodedFieldsAreTheBigEndianBytes :=
  fun B h => ⟨be16_toNat B 0, be16_toNat B 2, be32_toNat B 4, be32_toNat B 8, be16_toNat B 12, be16_toNat B 14,
    be16_toNat B 16, be16_toNat B 18, headerBytes_parseHeader B h⟩

end Sys2Proof.Machine
end

section
/-! The codec's commands on the state: DECODE (R67), ENCODE (R70), MKSEG (R71). -/

namespace Sys2Proof.Machine

variable (s : State)

/-! ### DECODE -/

theorem decodeSeg_of_not_decodable (B : Bytes) (a b : Word) (h : ¬ Decodable B) : decodeSeg B a b = none := by
  rw [← exists_decodeSeg_iff B a b] at h
  exact Option.eq_none_iff_forall_ne_some.mpr (not_exists.mp h)

/-- The segment of a decodable buffer, its options and payload counted from where they begin (R66). -/
theorem decodeSeg_of_decodable (B : Bytes) (a b : Word) (h : Decodable B) :
    decodeSeg B a b = some
      { toHeader := parseHeader B
        opt := (B.drop 20).take (declaredLen B - 20)
        pay := B.drop (declaredLen B)
        src := a
        dst := b } := by
  obtain ⟨⟨hd, opt, pay, src, dst⟩, e⟩ := (exists_decodeSeg_iff B a b).mpr h
  obtain ⟨-, rfl, rfl, rfl, rfl, rfl⟩ := decodeSeg_eq_some B a b _ e
  rw [e, slice_to_end, slice, List.drop_take]

theorem exec_decode_of_not_decodable (h : ¬ Decodable s.ibuf) :
    exec .decode s = .next ((s.setSegv false).setStatus .truncated) := by
  simp only [exec, execDecode, decodeStage, decodeSeg_of_not_decodable _ _ _ h, takeDecoded]

theorem exec_decode_of_eq_some (g : Segment) (h : decodeSeg s.ibuf s.inSrc s.inDst = some g) :
    exec .decode s = .next (((s.setSeg g).setSegv true).setStatus .ok) := by
  simp only [exec, execDecode, decodeStage, h, takeDecoded]

/-- Settles O18: the two outcomes are those of `Decode`, which a buffer has by whether it is `Decodable`. -/
theorem decodeCommand : Obligations.DecodeCommand := by
  refine ⟨rfl, fun s => ⟨fun h => ?truncated, fun hl hmin hmax => ?ok⟩⟩
  case truncated =>
    have : ¬ Decodable s.ibuf := by rintro ⟨hl, hmin, hmax⟩; omega
    exact exec_decode_of_not_decodable s this
  case ok => exact exec_decode_of_eq_some s _ (decodeSeg_of_decodable _ _ _ ⟨hl, hmin, hmax⟩)

/-! ### ENCODE -/

theorem exec_encode_of_too_long (h : s.segv = true) (hl : s.cfg.maxLen < wireLen s.seg) :
    exec .encode s = .next (s.setStatus .lengthOverflow) := by
  simp [exec, execEncode, encodeStage, h, hl]

theorem exec_encode_of_fits (h : s.segv = true) (hl : wireLen s.seg ≤ s.cfg.maxLen) :
    exec .encode s = .next ((s.setObuf (encodeSeg s.seg)).setStatus .ok) := by
  simp [exec, execEncode, encodeStage, h, Nat.not_lt.mpr hl]

/-- Settles O19: one lemma per outcome, with bit 0 of `FLAGS` for `SEGV`. -/
theorem encodeCommand : Obligations.EncodeCommand := by
  refine ⟨rfl, fun s => ?_⟩
  rw [← segv_eq_getLsbD]
  exact ⟨exec_encode_of_not_segv s, exec_encode_of_too_long s, exec_encode_of_fits s⟩

/-! ### MKSEG -/

theorem exec_mkseg_eq : exec .mkseg s = .next ((s.setSegv true).setStatus .ok) := rfl

/-- The segment of all zeros is written as its header alone (R69). -/
theorem encodeSeg_zero : encodeSeg Segment.zero = List.replicate 20 0 := rfl

/-- Settles O20: MKSEG declares the segment in `SEG`; after reset that one is all zeros, and it fits the default buffer. -/
theorem mksegCommand : Obligations.MksegCommand := by
  refine ⟨rfl, exec_mkseg_eq, _, _, exec_mkseg_eq _, exec_encode_of_fits _ ?segv ?fits, encodeSeg_zero⟩
  case segv => rw [segv_setStatus, segv_setSegv]
  case fits => decide

end Sys2Proof.Machine
end

section
/-! `Sum` over a range (R80): word by word, over two parts, bounded; and the sums of the encoded numbers. -/

namespace Sys2Proof.Machine

/-- `word(k)` of R80: the big-endian word at offset `2k`, with a zero low byte where the range ends at its high byte. -/
def wordAt (B : Bytes) (k : Nat) : Nat :=
  (B.getD (2 * k) 0).toNat * 256 + if 2 * k + 1 < B.length then (B.getD (2 * k + 1) 0).toNat else 0

theorem wordAt_singleton (a : Byte) : wordAt [a] 0 = a.toNat * 256 := by
  simp [wordAt]

theorem wordAt_cons_cons_zero (a b : Byte) (B : Bytes) : wordAt (a :: b :: B) 0 = a.toNat * 256 + b.toNat := by
  simp [wordAt]

theorem wordAt_cons_cons_succ (a b : Byte) (B : Bytes) (k : Nat) : wordAt (a :: b :: B) (k + 1) = wordAt B k := by
  have inside : 2 * (k + 1) + 1 < (a :: b :: B).length ↔ 2 * k + 1 < B.length := by
    simp only [List.length_cons]
    omega
  simp only [wordAt, inside]
  rfl

theorem sum_eq_sum_wordAt (B : Bytes) : sum B = ∑ k ∈ Finset.range ((B.length + 1) / 2), wordAt B k := by
  induction B using sumWords.induct with
  | case1 => simp
  | case2 a => simp [wordAt_singleton]
  | case3 a b B ih =>
    have words : ((a :: b :: B).length + 1) / 2 = (B.length + 1) / 2 + 1 := by simp only [List.length_cons]; omega
    rw [words, Finset.sum_range_succ', wordAt_cons_cons_zero, sum_cons_cons, ih, Nat.add_comm]
    simp only [wordAt_cons_cons_succ]

/-- An even first part ends at a word boundary. -/
theorem sum_append_of_even (X Y : Bytes) (h : X.length % 2 = 0) : sum (X ++ Y) = sum X + sum Y := by
  induction X using sumWords.induct with
  | case1 => simp
  | case2 a => cases h
  | case3 a b X ih =>
    have even : X.length % 2 = 0 := by simp only [List.length_cons] at h; omega
    simp only [List.cons_append, sum_cons_cons, ih even, Nat.add_assoc]

theorem sum_le (B : Bytes) : sum B ≤ 65535 * ((B.length + 1) / 2) := by
  induction B using sumWords.induct with
  | case1 => simp
  | case2 a =>
    have := a.isLt
    simp only [sum_singleton, List.length_cons, List.length_nil]
    omega
  | case3 a b B ih =>
    have := a.isLt
    have := b.isLt
    simp only [sum_cons_cons, List.length_cons]
    omega

/-- Settles O22: by induction over the words; after one byte more, the two bytes of `Y` change halves. -/
theorem sumIsTheSumOfBigEndianWords : Obligations.SumIsTheSumOfBigEndianWords :=
  ⟨sum_eq_sum_wordAt, sum_append_of_even, sum_le, sum_nil, [0], [1], rfl, by simp⟩

/-! ### Encoded numbers -/

theorem sum_enc16_append (v : Half) (B : Bytes) : sum (enc16 v ++ B) = v.toNat + sum B := by
  rw [enc16, List.cons_append, List.cons_append, List.nil_append, sum_cons_cons, ← append_bytes_toNat, half_halves]

theorem sum_enc16 (v : Half) : sum (enc16 v) = v.toNat := by
  rw [← List.append_nil (enc16 v), sum_enc16_append, sum_nil, Nat.add_zero]

/-- The two halves of a 32-bit number are two words (R84). -/
theorem sum_enc32_append (v : Word) (B : Bytes) :
    sum (enc32 v ++ B) = v.toNat / 2 ^ 16 + v.toNat % 2 ^ 16 + sum B := by
  have := v.isLt
  rw [enc32, List.append_assoc, sum_enc16_append, sum_enc16_append, BitVec.extractLsb'_toNat, BitVec.extractLsb'_toNat,
    Nat.shiftRight_eq_div_pow, Nat.shiftRight_zero]
  omega

/-- The six words of a pseudo-header (R52). -/
theorem sum_pseudoBytes (src dst : Word) (len : Half) :
    sum (pseudoBytes src dst len) =
      src.toNat / 2 ^ 16 + src.toNat % 2 ^ 16 + dst.toNat / 2 ^ 16 + dst.toNat % 2 ^ 16 + 6 + len.toNat := by
  have six : protoWord.toNat = 6 := rfl
  simp only [pseudoBytes, List.append_assoc, sum_enc16_append, sum_enc32_append, sum_enc16, six, Nat.add_assoc]

/-- The ten words of a header (R45). -/
theorem sum_headerBytes (h : Header) :
    sum (headerBytes h) =
      h.sport.toNat + h.dport.toNat + h.seq.toNat / 2 ^ 16 + h.seq.toNat % 2 ^ 16 + h.ackn.toNat / 2 ^ 16 +
        h.ackn.toNat % 2 ^ 16 + h.ctrl.toNat + h.win.toNat + h.csum.toNat + h.urgp.toNat := by
  simp only [headerBytes, List.append_assoc, sum_enc16_append, sum_enc32_append, sum_enc16, Nat.add_assoc]

end Sys2Proof.Machine
end

section
/-! `Fold` and `Compile` (R81, R82): the residue modulo 65535 that every pass keeps, and its complement. -/

namespace Sys2Proof.Machine

/-- One pass of the loop (R81). -/
theorem fold_of_gt (v : Nat) (h : v > 0xFFFF) : fold v = fold (v % 0x10000 + v / 0x10000) := by
  have less := pass_lt v h
  obtain ⟨n, rfl⟩ : ∃ n, v = n + 1 := ⟨v - 1, by omega⟩
  rw [fold, fold, foldPasses, if_pos h]
  exact foldPasses_enough _ _ _ (by omega) le_rfl

/-- What holds of a value of 16 bits, and of a value whose next pass it holds of, holds of every value. -/
theorem fold_induction {motive : Nat → Prop} (done : ∀ v ≤ 0xFFFF, motive v)
    (pass : ∀ v > 0xFFFF, motive (v % 0x10000 + v / 0x10000) → motive v) (v : Nat) : motive v := by
  induction v using Nat.strong_induction_on with
  | _ v ih =>
    obtain h | h := le_or_gt v 0xFFFF
    · exact done v h
    · exact pass v h (ih _ (pass_lt v h))

theorem fold_le (v : Nat) : fold v ≤ 0xFFFF := by
  induction v using fold_induction with
  | done v h => rwa [fold_of_le v h]
  | pass v h ih => rwa [fold_of_gt v h]

/-- A pass keeps the residue, because `2^16` is 1 modulo 65535 (R81). -/
theorem fold_mod (v : Nat) : fold v % 65535 = v % 65535 := by
  induction v using fold_induction with
  | done v h => rw [fold_of_le v h]
  | pass v h ih => rw [fold_of_gt v h, ih]; omega

theorem fold_eq_zero_iff (v : Nat) : fold v = 0 ↔ v = 0 := by
  induction v using fold_induction with
  | done v h => rw [fold_of_le v h]
  | pass v h ih => rw [fold_of_gt v h, ih]; omega

theorem fold_eq_ones_iff (v : Nat) : fold v = 0xFFFF ↔ 0 < v ∧ v % 65535 = 0 := by
  have le := fold_le v
  have mod := fold_mod v
  have zero := fold_eq_zero_iff v
  omega

theorem compile_toNat (v : Nat) : (compile v).toNat = 0xFFFF - fold v := by
  rw [compile, BitVec.toNat_ofNat]
  omega

theorem compile_of_gt (v : Nat) (h : v > 0xFFFF) : compile v = compile (v % 0x10000 + v / 0x10000) := by
  rw [compile, fold_of_gt v h, compile]

theorem compile_eq_zero_iff (v : Nat) : compile v = 0 ↔ fold v = 0xFFFF := by
  have le := fold_le v
  have toNat : (compile v).toNat = 0xFFFF - fold v := compile_toNat v
  have zero : (0 : Half).toNat = 0 := rfl
  rw [← BitVec.toNat_inj, toNat, zero]
  omega

/-- Settles O24: `Compile` is zero where `Fold` is 0xFFFF, which it is on the positive multiples of 65535. -/
theorem compileComplementsTheFold : Obligations.CompileComplementsTheFold :=
  ⟨compile_toNat, compile_of_le 0 (Nat.zero_le _), fun v => (compile_eq_zero_iff v).trans (fold_eq_ones_iff v)⟩

end Sys2Proof.Machine
end

section
/-! The sum of a segment (R84): its parts and its bounds; the validity check (R86). -/

namespace Sys2Proof.Machine

variable (g : Segment)

/-- The addresses come in by the pseudo-header, everything else by the bytes on the wire (R84). -/
theorem segSum_eq : segSum g = sum (pseudoHeader g) + sum (encodeSeg g) := by
  rw [segSum, List.append_assoc, List.append_assoc, sum_append_of_even _ _ (by simp), encodeSeg, List.append_assoc]

theorem segSum_pos : 0 < segSum g := by
  rw [segSum_eq, pseudoHeader, sum_pseudoBytes]
  omega

/-- The sum of a segment that a command sums fits `ACC` (R91). -/
theorem segSum_lt (h : wireLen g ≤ 65535) : segSum g < 2 ^ 32 := by
  have pseudo := sum_le (pseudoHeader g)
  have wire := sum_le (encodeSeg g)
  rw [pseudoHeader_length] at pseudo
  rw [encodeSeg_length] at wire
  rw [segSum_eq]
  omega

theorem segSum_toNat_ofNat (h : wireLen g ≤ 65535) : (BitVec.ofNat 32 (segSum g)).toNat = segSum g :=
  Nat.mod_eq_of_lt (segSum_lt g h)

theorem segSum0_toNat_ofNat (h : wireLen g ≤ 65535) : (BitVec.ofNat 32 (segSum0 g)).toNat = segSum0 g :=
  segSum_toNat_ofNat (withCsum g 0) h

theorem ckValid_iff_compile : ckValid g = true ↔ compile (segSum g) = 0 := beq_iff_eq

theorem ckValid_iff_fold : ckValid g = true ↔ fold (segSum g) = 0xFFFF :=
  (ckValid_iff_compile g).trans (compile_eq_zero_iff _)

theorem fold_segSum_ne_zero : fold (segSum g) ≠ 0 :=
  mt (fold_eq_zero_iff _).mp (segSum_pos g).ne'

theorem ckValid_iff_mod : ckValid g = true ↔ segSum g % 65535 = 0 := by
  rw [ckValid_iff_fold, fold_eq_ones_iff, and_iff_right (segSum_pos g)]

/-- Beside its source address and its checksum, the segment of all zeros sums to the words 6 and 20 of its pseudo-header. -/
theorem segSum_zero_with (a : Word) (c : Half) :
    segSum { Segment.zero with src := a, csum := c } = a.toNat / 2 ^ 16 + a.toNat % 2 ^ 16 + 26 + c.toNat := by
  rw [segSum_eq, pseudoHeader, sum_pseudoBytes, encodeSeg, List.append_assoc, sum_append_of_even _ _ (by simp),
    sum_headerBytes]
  simp [Segment.zero, wireLen, fixedHdr, Nat.add_assoc]

/-- Settles O28: the fold is not zero since the sum is not. The segment of all zeros sums to 26 under source address 0, so
0xFFE5 is its checksum there; under source address 1 the sum is one more. -/
theorem validityFoldsToAllOnes : Obligations.ValidityFoldsToAllOnes := by
  refine ⟨fun g _ => ⟨ckValid_iff_compile g, ckValid_iff_fold g, fold_segSum_ne_zero g⟩,
    { Segment.zero with src := 0, csum := 0xFFE5 }, 1, ?valid, rfl, ?invalid⟩
  case valid => rw [ckValid_iff_mod, segSum_zero_with]; rfl
  case invalid => rw [Bool.eq_false_iff, ne_eq, ckValid_iff_mod, segSum_zero_with]; decide

end Sys2Proof.Machine
end

section
/-! The commands of the checksum engine on the state: SUM (R87), COMPILE (R88), CKGEN (R89), CKVERIFY (R90). -/

namespace Sys2Proof.Machine

/-- The sum of a buffer a run can hold fits `ACC` (R91). -/
theorem sum_toNat_ofNat (B : Bytes) (h : B.length ≤ 65535) : (BitVec.ofNat 32 (sum B)).toNat = sum B := by
  have := sum_le B
  exact Nat.mod_eq_of_lt (by omega)

/-- Settles O31: `ACC` is wide enough for the sum. -/
theorem sumCommand : Obligations.SumCommand :=
  ⟨rfl, fun s => ⟨exec_sum_eq s, sum_toNat_ofNat s.ibuf⟩⟩

/-- Settles O32: the six values of the rule need at most two passes of the loop. -/
theorem compileCommand : Obligations.CompileCommand := by
  refine ⟨rfl, fun s => ⟨_, exec_compile_eq s, compile_toNat _⟩, fun p hp s hs => ⟨_, exec_compile_eq s, ?value⟩⟩
  case value =>
    rw [setStatus_ckout, setCkout_ckout, hs]
    clear hs
    revert p
    simp [compile_of_gt, compile_of_le]

variable (s : State)

/-! ### CKGEN -/

theorem exec_ckgen_of_too_long (h : s.segv = true) (hl : 65535 < wireLen s.seg) :
    exec .ckgen s = .next (s.setStatus .lengthOverflow) := by
  simp [exec, execCkgen, maxSegLen, h, hl]

theorem exec_ckgen_of_fits (h : s.segv = true) (hl : wireLen s.seg ≤ 65535) :
    exec .ckgen s = .next ((((s.setAcc (segSum0 s.seg)).setCkout (compile (segSum0 s.seg))).setSeg
      (withCsum s.seg (compile (segSum0 s.seg)))).setStatus .ok) := by
  simp [exec, execCkgen, maxSegLen, h, Nat.not_lt.mpr hl]

/-- Settles O33: one lemma per outcome; where there is a sum, `ACC` holds it exactly. -/
theorem ckgenCommand : Obligations.CkgenCommand := by
  refine ⟨rfl, fun s => ?_⟩
  rw [← segv_eq_getLsbD]
  refine ⟨exec_ckgen_of_not_segv s, exec_ckgen_of_too_long s, fun h hl => ?ok⟩
  case ok =>
    have fits := segSum0_toNat_ofNat s.seg hl
    exact ⟨_, compile (segSum0 s.seg), fits, by rw [fits, compile_toNat], exec_ckgen_of_fits s h hl⟩

/-! ### CKVERIFY -/

theorem exec_ckverify_of_too_long (h : s.segv = true) (hl : 65535 < wireLen s.seg) :
    exec .ckverify s = .next ((s.setCkok false).setStatus .lengthOverflow) := by
  simp [exec, execCkverify, maxSegLen, h, hl]

theorem exec_ckverify_of_compile_eq_zero (h : s.segv = true) (hl : wireLen s.seg ≤ 65535)
    (hc : compile (segSum s.seg) = 0) :
    exec .ckverify s =
      .next ((((s.setAcc (segSum s.seg)).setCkout (compile (segSum s.seg))).setCkok true).setStatus .ok) := by
  simp [exec, execCkverify, maxSegLen, h, Nat.not_lt.mpr hl, hc]

theorem exec_ckverify_of_compile_ne_zero (h : s.segv = true) (hl : wireLen s.seg ≤ 65535)
    (hc : compile (segSum s.seg) ≠ 0) :
    exec .ckverify s =
      .next ((((s.setAcc (segSum s.seg)).setCkout (compile (segSum s.seg))).setCkok false).setStatus .badChecksum) := by
  simp only [exec, execCkverify, maxSegLen, h, gt_iff_lt, Nat.not_lt.mpr hl, hc, if_false, Bool.true_eq_false, endWith_eq]

/-- Settles O34: one lemma per outcome, with bit 1 of `FLAGS` for `CKOK`. -/
theorem ckverifyCommand : Obligations.CkverifyCommand := by
  refine ⟨rfl, fun s => ?_⟩
  rw [← segv_eq_getLsbD]
  refine ⟨exec_ckverify_of_not_segv s, exec_ckverify_of_too_long s, fun h hl => ?summed⟩
  case summed =>
    have fits := segSum_toNat_ofNat s.seg hl
    exact ⟨_, compile (segSum s.seg), fits, by rw [fits, compile_toNat], exec_ckverify_of_compile_eq_zero s h hl,
      exec_ckverify_of_compile_ne_zero s h hl⟩

end Sys2Proof.Machine
end

section
/-! The reply class of a segment's key (R58) and the pure policy `Respond` (R100 to R105), by port and flags. -/

namespace Sys2Proof.Machine

theorem replyKey_inj (p p' k k' : Half) : replyKey p k = replyKey p' k' ↔ p = p' ∧ k = k' := by
  refine ⟨fun h => ⟨?_, ?_⟩, fun ⟨hp, hk⟩ => by rw [hp, hk]⟩
  · rw [← append_halves_high p k, ← append_halves_high p' k']
    exact congrArg (BitVec.extractLsb' 16 16) h
  · rw [← append_halves_low p k, ← append_halves_low p' k']
    exact congrArg (BitVec.extractLsb' 0 16) h

/-- A mask on a key is a mask on the port and one on the control word. -/
theorem replyKey_and (p m k n : Half) : replyKey p k &&& replyKey m n = replyKey (p &&& m) (k &&& n) :=
  BitVec.and_append

/-- A key against the mask and match of a row that fixes the port (R58). -/
theorem replyKey_masked_eq_iff (p k n v : Half) :
    replyKey p k &&& replyKey 0xFFFF n = replyKey 80 v ↔ p = 80 ∧ k &&& n = v := by
  rw [replyKey_and, replyKey_inj, show (0xFFFF : Half) = BitVec.allOnes 16 from rfl, BitVec.and_allOnes]

theorem synMask_and (k : Half) : k &&& 0x0002 = if k.getLsbD 1 then 0x0002 else 0 := BitVec.and_twoPow k 1

theorem pshMask_and (k : Half) : k &&& 0x0008 = if k.getLsbD 3 then 0x0008 else 0 := BitVec.and_twoPow k 3

/-- The mask of R58 that keeps SYN and PSH. -/
theorem synPshMask_and (k : Half) : k &&& 0x000A = (k &&& 0x0002) ||| (k &&& 0x0008) :=
  BitVec.and_or_distrib_left (y := 0x0002) (z := 0x0008)

theorem synSet_iff (k : Half) : k &&& 0x0002 ≠ 0 ↔ k.getLsbD 1 = true := by
  rw [synMask_and]
  cases k.getLsbD 1 <;> decide

theorem pshSet_iff (k : Half) : k &&& 0x0008 ≠ 0 ↔ k.getLsbD 3 = true := by
  rw [pshMask_and]
  cases k.getLsbD 3 <;> decide

/-- The match of row RCLASS_SYN on a control word (R58). -/
theorem synMatch_iff (k : Half) : k &&& 0x0002 = 0x0002 ↔ k.getLsbD 1 = true := by
  rw [synMask_and]
  cases k.getLsbD 1 <;> decide

/-- The match of row RCLASS_PSH on a control word (R58). -/
theorem pshMatch_iff (k : Half) : k &&& 0x000A = 0x0008 ↔ k.getLsbD 1 = false ∧ k.getLsbD 3 = true := by
  rw [synPshMask_and, synMask_and, pshMask_and]
  cases k.getLsbD 1 <;> cases k.getLsbD 3 <;> decide

/-- The rows of R58 on the key of a segment: the port, then SYN, then PSH. -/
theorem classify_replyKey (p k : Half) :
    classify (replyKey p k) =
      if p ≠ 80 then .unserved else if k.getLsbD 1 then .syn else if k.getLsbD 3 then .psh else .other := by
  have port : replyKey p k &&& 0xFFFF0000 = 0x00500000 ↔ p = 80 :=
    (replyKey_masked_eq_iff p k 0 0).trans (and_iff_left BitVec.and_zero)
  have syn : replyKey p k &&& 0xFFFF0002 = 0x00500002 ↔ p = 80 ∧ k.getLsbD 1 = true :=
    (replyKey_masked_eq_iff p k 0x0002 0x0002).trans (and_congr_right' (synMatch_iff k))
  have psh : replyKey p k &&& 0xFFFF000A = 0x00500008 ↔ p = 80 ∧ k.getLsbD 1 = false ∧ k.getLsbD 3 = true :=
    (replyKey_masked_eq_iff p k 0x000A 0x0008).trans (and_congr_right' (pshMatch_iff k))
  simp only [classify, ne_eq, port, syn, psh]
  by_cases hp : p = 80
  · obtain rfl := hp
    cases k.getLsbD 1 <;> simp
  · simp only [hp, not_false_eq_true, if_true]

section
variable (c : Config) (g : Segment) (r : Word) (gen : Bytes → Bytes)

theorem respondPolicy_eq :
    respondPolicy c g r gen =
      if g.dport ≠ 80 then [] else if g.ctrl.getLsbD 1 then [synReply c g r]
      else if g.ctrl.getLsbD 3 then [pshReply c g gen] else [] := by
  simp only [respondPolicy, synSet_iff, pshSet_iff]

theorem respondPolicy_of_unserved (port : g.dport ≠ 80) : respondPolicy c g r gen = [] := by
  rw [respondPolicy_eq, if_pos port]

theorem respondPolicy_of_syn (port : g.dport = 80) (syn : g.ctrl.getLsbD 1 = true) :
    respondPolicy c g r gen = [synReply c g r] := by
  rw [respondPolicy_eq, if_neg (not_not.mpr port), syn]
  rfl

theorem respondPolicy_of_psh (port : g.dport = 80) (syn : g.ctrl.getLsbD 1 = false) (psh : g.ctrl.getLsbD 3 = true) :
    respondPolicy c g r gen = [pshReply c g gen] := by
  rw [respondPolicy_eq, if_neg (not_not.mpr port), syn, psh]
  rfl

theorem respondPolicy_of_other (port : g.dport = 80) (syn : g.ctrl.getLsbD 1 = false) (psh : g.ctrl.getLsbD 3 = false) :
    respondPolicy c g r gen = [] := by
  rw [respondPolicy_eq, if_neg (not_not.mpr port), syn, psh]
  rfl

/-- `Respond` gives at most one reply (R101). -/
theorem respondPolicy_length_le : (respondPolicy c g r gen).length ≤ 1 := by
  rw [respondPolicy]
  split_ifs <;> simp

/-- The checksum of a reply is that of its other fields (R109). -/
theorem mkReply_csum (seq ackn : Word) (opt pay : Bytes) (flags : Half) :
    (mkReply c g seq ackn opt pay flags).csum = compile (segSum0 (mkReply c g seq ackn opt pay flags)) := by
  simp only [mkReply, ckGen_csum, segSum0_ckGen]

theorem mkReply_csum_toNat (seq ackn : Word) (opt pay : Bytes) (flags : Half) :
    (mkReply c g seq ackn opt pay flags).csum.toNat = 0xFFFF - fold (segSum0 (mkReply c g seq ackn opt pay flags)) := by
  rw [mkReply_csum, compile_toNat]

theorem csum_of_respondPolicy (out : Segment) (h : respondPolicy c g r gen = [out]) :
    out.csum = compile (segSum0 out) := by
  rw [respondPolicy] at h
  split_ifs at h <;> rw [← List.singleton_inj.mp h] <;> exact mkReply_csum ..

end

end Sys2Proof.Machine
end

section
/-! The control word of a reply (R109). -/

namespace Sys2Proof.Machine

theorem replyCtrl_toNat (opt : Bytes) (flags : Half) (h : opt.length ≤ 40) (hf : flags.toNat < 4096) :
    (replyCtrl opt flags).toNat = (20 + opt.length) / 4 * 2 ^ 12 + flags.toNat := by
  have nibble : (BitVec.ofNat 16 ((20 + opt.length) / 4 * 4096)).toNat = ((20 + opt.length) / 4) <<< 12 := by
    rw [BitVec.toNat_ofNat, Nat.shiftLeft_eq]
    omega
  rw [replyCtrl, fixedHdr, BitVec.toNat_or, nibble, ← Nat.shiftLeft_add_eq_or_of_lt hf, Nat.shiftLeft_eq]

/-- The mask 0xF000 keeps `DOFF` in its place (R47). -/
theorem doffMask_and (ctrl : Half) : ctrl &&& 0xF000 = BitVec.ofNat 16 (doff ctrl * 4096) := by
  have mask : ctrl &&& (0xF000 : Half) = (ctrl >>> 12) <<< 12 := by
    ext i hi
    interval_cases i <;> simp
  rw [mask, doff_eq_div]
  apply BitVec.eq_of_toNat_eq
  rw [BitVec.toNat_shiftLeft, BitVec.toNat_ushiftRight, BitVec.toNat_ofNat, Nat.shiftLeft_eq, Nat.shiftRight_eq_div_pow]

/-- A reply with the options of a well-formed segment has that segment's header length (R103). -/
theorem replyCtrl_of_wellFormed (g : Segment) (flags : Half) (h : g.WellFormed) :
    replyCtrl g.opt flags = (g.ctrl &&& 0xF000) ||| flags := by
  obtain ⟨four, -, len⟩ := h
  have : (fixedHdr + g.opt.length) / 4 = doff g.ctrl := by rw [len, fixedHdr]; omega
  rw [replyCtrl, this, doffMask_and]

end Sys2Proof.Machine
end

section
/-! The stage RESPOND on a segment, by what `Respond` says of it (R110), as whole states. -/

namespace Sys2Proof.Machine

/-- The outcome of a segment that gets no reply (R110). -/
def noReplyStatus (g : Segment) : Status := if g.dport ≠ 80 then .policyReject else .unhandled

theorem statusCode_noReplyStatus (g : Segment) :
    statusCode (noReplyStatus g) = if g.dport ≠ 80 then 0x02 else 0x03 :=
  apply_ite statusCode ..

theorem noReplyStatus_ne_ok (g : Segment) : noReplyStatus g ≠ .ok := by
  rw [noReplyStatus]
  split_ifs <;> decide

/-- Where a reply to a segment asks a collaborator, that one answers: the random source with the draw `r` where SYN is set,
the generator where it is clear. -/
def Answers (a : Inputs) (g : Segment) (r : Word) : Prop :=
  (g.ctrl.getLsbD 1 = true → a.rand = some r) ∧ (g.ctrl.getLsbD 1 = false → a.httpUp = true)

theorem answers_of_syn (a : Inputs) (g : Segment) (r : Word) (syn : g.ctrl.getLsbD 1 = true) (rand : a.rand = some r) :
    Answers a g r :=
  ⟨fun _ => rand, fun clear => absurd (clear.symm.trans syn) Bool.false_ne_true⟩

theorem answers_of_not_syn (a : Inputs) (g : Segment) (r : Word) (syn : g.ctrl.getLsbD 1 = false)
    (http : a.httpUp = true) : Answers a g r :=
  ⟨fun set => absurd (syn.symm.trans set) Bool.false_ne_true, fun _ => http⟩

variable (s : State)

theorem putFlag_clear_segv_reply (f : Byte) : putFlag replyMask false (putFlag segvMask false f) = f &&& 0xFA :=
  BitVec.and_assoc f 0xFE 0xFB

theorem putFlag_set_segv_reply (f : Byte) : putFlag replyMask true (putFlag segvMask true f) = f ||| 0x05 :=
  BitVec.or_assoc f 0x01 0x04

theorem unreplied_eq (st : Status) :
    unreplied st s = { s with flags := s.flags &&& 0xFA, status := statusCode st } := by
  rw [← putFlag_clear_segv_reply]
  rfl

theorem replied_eq (out : Segment) :
    replied out s =
      { s with
        seg := out, acc := BitVec.ofNat 32 (segSum0 out), ckout := compile (segSum0 out), flags := s.flags ||| 0x05
        status := 0x00 } := by
  rw [← putFlag_set_segv_reply]
  rfl

/-- A reply that `Respond` gives: its own checksum stands in `CKOUT` (R110). -/
theorem replied_eq_of_policy (g out : Segment) (r : Word) (hp : respondPolicy s.cfg g r (httpGen s.cfg) = [out]) :
    replied out s =
      { s with
        seg := out, acc := BitVec.ofNat 32 (segSum0 out), ckout := out.csum, flags := s.flags ||| 0x05
        status := 0x00 } := by
  rw [replied_eq, csum_of_respondPolicy s.cfg g r (httpGen s.cfg) out hp]

theorem respondStage_of_segv (h : s.segv = true) :
    respondStage s = classStage (classify (replyKey s.seg.dport s.seg.ctrl)) s := by
  simp [respondStage, h]

/-- A segment without a reply is refused by its port or as class OTHER, whatever the collaborators answer (R105). -/
theorem respondStage_of_no_reply (r : Word) (h : s.segv = true)
    (hp : respondPolicy s.cfg s.seg r (httpGen s.cfg) = []) :
    respondStage s = .next (unreplied (noReplyStatus s.seg) s) := by
  rw [respondStage_of_segv s h, classify_replyKey, noReplyStatus]
  rw [respondPolicy_eq] at hp
  split_ifs at hp ⊢ <;> rfl

/-- A segment with a reply gets it where the collaborator it asks answers (R103, R104, R110). -/
theorem respondStage_of_reply (r : Word) (out : Segment) (h : s.segv = true)
    (hp : respondPolicy s.cfg s.seg r (httpGen s.cfg) = [out]) (ha : Answers s.inputs s.seg r) :
    respondStage s = giveReply out s := by
  obtain ⟨rand, http⟩ := ha
  rw [respondStage_of_segv s h, classify_replyKey]
  rw [respondPolicy_eq] at hp
  split_ifs at hp ⊢ with port syn psh
  · obtain rfl := List.singleton_inj.mp hp
    simp only [classStage, synStage, rand syn]
  · obtain rfl := List.singleton_inj.mp hp
    simp only [classStage, pshStage, http (Bool.eq_false_iff.mpr syn), if_true]

theorem respondStage_of_reply_too_long (r : Word) (out : Segment) (h : s.segv = true)
    (hp : respondPolicy s.cfg s.seg r (httpGen s.cfg) = [out]) (ha : Answers s.inputs s.seg r)
    (hl : s.cfg.maxLen < wireLen out) : respondStage s = .next (unreplied .lengthOverflow s) := by
  rw [respondStage_of_reply s r out h hp ha, giveReply_eq, if_pos hl]

theorem respondStage_of_reply_fits (r : Word) (out : Segment) (h : s.segv = true)
    (hp : respondPolicy s.cfg s.seg r (httpGen s.cfg) = [out]) (ha : Answers s.inputs s.seg r)
    (hl : wireLen out ≤ s.cfg.maxLen) : respondStage s = .next (replied out s) := by
  rw [respondStage_of_reply s r out h hp ha, giveReply_eq, if_neg (Nat.not_lt.mpr hl)]

end Sys2Proof.Machine
end

section
/-! RESPOND (R100 to R110). -/

namespace Sys2Proof.Machine

section
variable (s : State) (r : Word) (h : s.segv = true)
include h

theorem exec_respond_of_no_reply (hp : respondPolicy s.cfg s.seg r (httpGen s.cfg) = []) :
    exec .respond s = .next
      { s with flags := s.flags &&& 0xFA, status := if s.seg.dport ≠ 80 then 0x02 else 0x03 } := by
  rw [← statusCode_noReplyStatus, ← unreplied_eq]
  exact respondStage_of_no_reply s r h hp

theorem exec_respond_of_reply_too_long (out : Segment) (hp : respondPolicy s.cfg s.seg r (httpGen s.cfg) = [out])
    (ha : Answers s.inputs s.seg r) (hl : s.cfg.maxLen < wireLen out) :
    exec .respond s = .next { s with flags := s.flags &&& 0xFA, status := 0x06 } :=
  (respondStage_of_reply_too_long s r out h hp ha hl).trans (congrArg _ (unreplied_eq s _))

theorem exec_respond_of_reply_fits (out : Segment) (hp : respondPolicy s.cfg s.seg r (httpGen s.cfg) = [out])
    (ha : Answers s.inputs s.seg r) (hl : wireLen out ≤ s.cfg.maxLen) :
    exec .respond s = .next
      { s with
        seg := out, acc := BitVec.ofNat 32 (segSum0 out), ckout := out.csum, flags := s.flags ||| 0x05
        status := 0x00 } := by
  rw [← replied_eq_of_policy s s.seg out r hp]
  exact respondStage_of_reply_fits s r out h hp ha hl

end

/-- Settles O42: one lemma per outcome, by what `Respond` gives and whether that fits. -/
theorem respondFollowsThePurePolicy : Obligations.RespondFollowsThePurePolicy := by
  refine ⟨rfl, fun s r => ?_⟩
  rw [← segv_eq_getLsbD]
  refine ⟨exec_respond_of_not_segv s, fun h => ⟨exec_respond_of_no_reply s r h, fun out hp rand http =>
    ⟨exec_respond_of_reply_too_long s r h out hp ⟨rand, http⟩, fun hl => ⟨?csum, ?fits⟩⟩⟩,
    respondPolicy_length_le ..⟩
  case csum => exact csum_of_respondPolicy _ _ _ _ out hp
  case fits => exact exec_respond_of_reply_fits s r h out hp ⟨rand, http⟩ hl

/-- Settles O39: neither a segment to another port nor one of class OTHER has a reply. -/
theorem respondWithoutReply : Obligations.RespondWithoutReply := by
  intro s h
  rw [← segv_eq_getLsbD] at h
  refine ⟨fun port => ?unserved, fun port syn psh => ?other⟩
  case unserved => rw [exec_respond_of_no_reply s 0 h (respondPolicy_of_unserved _ _ _ _ port), if_pos port]
  case other =>
    rw [exec_respond_of_no_reply s 0 h (respondPolicy_of_other _ _ _ _ port syn psh), if_neg (not_not.mpr port)]

/-- Settles O36: the fields of `SynReply`; its options are those of a buffer, so it fits 60 bytes. -/
theorem respondToSyn : Obligations.RespondToSyn := by
  intro s r inv h port syn rand
  rw [← segv_eq_getLsbD] at h
  obtain ⟨⟨hmin, -⟩, ⟨-, -, opts, -⟩, -⟩ := inv
  have opts : s.seg.opt.length ≤ 40 := opts
  have policy := respondPolicy_of_syn s.cfg s.seg r (httpGen s.cfg) port syn
  have answers := answers_of_syn s.inputs s.seg r syn rand
  refine ⟨synReply s.cfg s.seg r, ⟨rfl, rfl, rfl, rfl, rfl, ?ackn, rfl, rfl, rfl, rfl, ?ctrl, mkReply_csum_toNat ..⟩,
    replyCtrl_of_wellFormed s.seg synAck, ?run⟩
  case ackn => exact BitVec.toNat_add s.seg.seq 1
  case ctrl => exact replyCtrl_toNat s.seg.opt synAck opts (by decide)
  case run =>
    have fits : wireLen (synReply s.cfg s.seg r) ≤ s.cfg.maxLen := by rw [synReply_wireLen]; omega
    exact exec_respond_of_reply_fits s r h _ policy answers fits

/-- Settles O37: the fields of `PshReply`. -/
theorem respondToPsh : Obligations.RespondToPsh := by
  intro s _ h port syn psh http hl
  rw [← segv_eq_getLsbD] at h
  have policy := respondPolicy_of_psh s.cfg s.seg 0 (httpGen s.cfg) port syn psh
  have answers := answers_of_not_syn s.inputs s.seg 0 syn http
  refine ⟨pshReply s.cfg s.seg (httpGen s.cfg),
    ⟨rfl, rfl, rfl, rfl, rfl, ?ackn, rfl, rfl, rfl, rfl, rfl, mkReply_csum_toNat ..⟩, ?run⟩
  case ackn =>
    change (s.seg.seq + BitVec.ofNat 32 s.seg.pay.length).toNat = _
    rw [BitVec.toNat_add, BitVec.toNat_ofNat, Nat.add_mod_mod]
  case run =>
    rw [← pshReply_wireLen] at hl
    exact exec_respond_of_reply_fits s 0 h _ policy answers hl

end Sys2Proof.Machine
end

section
/-! PROCESS (R111): the stages DECODE, RESPOND and ENCODE one after the other. -/

namespace Sys2Proof.Machine

/-- The state after a DECODE that ends `OK` (R67). -/
def decoded (g : Segment) (s : State) : State := ((s.setSeg g).setSegv true).setStatus .ok

section
variable (s : State) (g out : Segment)

theorem decodeStage_of_eq_some (h : decodeSeg s.ibuf s.inSrc s.inDst = some g) : decodeStage s = decoded g s :=
  Host.Outcome.next.inj (exec_decode_of_eq_some s g h)

theorem decodeStage_of_eq_none (h : decodeSeg s.ibuf s.inSrc s.inDst = none) :
    decodeStage s = (s.setSegv false).setStatus .truncated := by
  rw [decodeStage, h]
  rfl

/-- After a DECODE that ends `OK` the stage RESPOND decides how PROCESS goes on (R111). -/
theorem exec_process_of_decoded (h : decodeSeg s.ibuf s.inSrc s.inDst = some g) :
    exec .process s = andThen (respondStage (decoded g s)) fun t =>
      if t.endedOk = false then .next (t.setObuf []) else .next (encodeStage t) := by
  have ok : (decoded g s).endedOk = true := endedOk_setStatus _ .ok
  simp only [exec, execProcess, decodeStage_of_eq_some s g h, ok, Bool.true_eq_false, if_false]

/-- A RESPOND without a reply is the last stage (R111). -/
theorem exec_process_of_unreplied (st : Status) (h : decodeSeg s.ibuf s.inSrc s.inDst = some g) (hst : st ≠ .ok)
    (hr : respondStage (decoded g s) = .next (unreplied st (decoded g s))) :
    exec .process s = .next ((unreplied st (decoded g s)).setObuf []) := by
  rw [exec_process_of_decoded s g h, hr]
  simp [andThen, unreplied, endedOk_setStatus, hst]

theorem encodeStage_replied (hl : wireLen out ≤ s.cfg.maxLen) :
    encodeStage (replied out s) = (replied out s).setObuf (encodeSeg out) :=
  Host.Outcome.next.inj (exec_encode_of_fits (replied out s) (replied_segv s out) hl)

/-- A reply that fits is encoded (R111). -/
theorem exec_process_of_replied (h : decodeSeg s.ibuf s.inSrc s.inDst = some g) (hl : wireLen out ≤ s.cfg.maxLen)
    (hr : respondStage (decoded g s) = .next (replied out (decoded g s))) :
    exec .process s = .next ((replied out (decoded g s)).setObuf (encodeSeg out)) := by
  have ok : (replied out (decoded g s)).endedOk = true := endedOk_setStatus _ .ok
  rw [exec_process_of_decoded s g h, hr]
  simp only [andThen, ok, Bool.true_eq_false, if_false, encodeStage_replied (decoded g s) out hl]

/-- A buffer that does not decode is the end of PROCESS (R111). -/
theorem exec_process_of_truncated (h : decodeSeg s.ibuf s.inSrc s.inDst = none) :
    exec .process s = .next ((unreplied .truncated s).setObuf []) := by
  simp only [exec, execProcess, decodeStage_of_eq_none s h, endedOk_setStatus]
  rfl

/-- Without a reply `SEGV` is cleared again: of the stage DECODE the segment is left. -/
theorem unreplied_decoded (st : Status) : unreplied st (decoded g s) = unreplied st (s.setSeg g) := by
  have flags : (s.flags ||| 0x01) &&& 0xFA = s.flags &&& 0xFA :=
    BitVec.and_or_distrib_right.trans BitVec.or_zero
  rw [unreplied_eq, unreplied_eq, setSeg_flags, ← flags]
  rfl

/-- A reply writes over all that the stage DECODE wrote. -/
theorem replied_decoded : replied out (decoded g s) = replied out s := by
  have flags : (s.flags ||| 0x01) ||| 0x05 = s.flags ||| 0x05 := BitVec.or_assoc s.flags 0x01 0x05
  rw [replied_eq, replied_eq, ← flags]
  rfl

end

/-- Settles O45: by whether the buffer decodes, whether its segment has a reply and whether that fits. -/
theorem processCommand : Obligations.ProcessCommand := by
  refine ⟨rfl, fun s r => ⟨fun h => ?truncated, fun g h => ⟨fun hp => ?none, fun out hp rand http =>
    ⟨fun hl => ?long, fun hl => ?fits⟩⟩⟩⟩
  case truncated => rw [exec_process_of_truncated s h, unreplied_eq]; rfl
  case none =>
    have stage := respondStage_of_no_reply (decoded g s) r (segv_setSegv _ true) hp
    rw [exec_process_of_unreplied s g _ h (noReplyStatus_ne_ok g) stage, unreplied_decoded, unreplied_eq,
      statusCode_noReplyStatus]
    rfl
  case long =>
    have stage := respondStage_of_reply_too_long (decoded g s) r out (segv_setSegv _ true) hp ⟨rand, http⟩ hl
    rw [exec_process_of_unreplied s g _ h (by decide) stage, unreplied_decoded, unreplied_eq]
    rfl
  case fits =>
    have stage := respondStage_of_reply_fits (decoded g s) r out (segv_setSegv _ true) hp ⟨rand, http⟩ hl
    rw [exec_process_of_replied s g out h hl stage, replied_decoded, replied_eq_of_policy s g out r hp]
    rfl

end Sys2Proof.Machine
end

section
/-! CLEAR (R112). -/

namespace Sys2Proof.Machine

theorem exec_clear_eq (s : State) : exec .clear s = .next (s.clearRegs.setStatus .ok) := rfl

/-- The host reads registers only: what CLEAR leaves of `s` it cannot see. -/
theorem view_clear (s : State) (r : Reg) : (s.clearRegs.setStatus .ok).view r = State.reset.view r := by
  cases r <;> rfl

/-- Settles O49: the registers of `clearRegs`, whose `IBUF` is empty. -/
theorem clearCommand : Obligations.ClearCommand :=
  ⟨rfl, fun s => ⟨_, exec_clear_eq s, ⟨rfl, rfl, rfl, rfl, rfl, rfl, rfl, rfl, rfl⟩, view_clear s,
    _, exec_decode_of_short _ Nat.ofNat_pos, rfl⟩⟩

end Sys2Proof.Machine
end

section
/-! The codec's round trips (R72): a segment through its bytes, bytes through a segment, and what an ill-formed one becomes;
the header row as the rest of DECODE (R45). -/

namespace Sys2Proof.Machine

-- Here and in the sections below this option has each proof elaborated before the next begins; by default many wait at
-- once, each on a thread stack of its own, and the check runs out of memory.
set_option deprecated.oldSectionVars true

/-- A header in front of enough bytes: the buffer is cut where that header says (R66). -/
theorem decodeSeg_headerBytes_append (h : Header) (X : Bytes) (a b : Word) (hmin : 20 ≤ headerLenBytes h.ctrl)
    (hmax : headerLenBytes h.ctrl ≤ 20 + X.length) :
    decodeSeg (headerBytes h ++ X) a b = some
      { toHeader := h
        opt := X.take (headerLenBytes h.ctrl - 20)
        pay := X.drop (headerLenBytes h.ctrl - 20)
        src := a
        dst := b } := by
  have header := parseHeader_headerBytes_append h X
  have declared : declaredLen (headerBytes h ++ X) = headerLenBytes h.ctrl := by
    rw [← headerLenBytes_parseHeader, header]
  have total : (headerBytes h ++ X).length = 20 + X.length := by rw [List.length_append, headerBytes_length]
  have decodable : Decodable (headerBytes h ++ X) := by
    rw [Decodable, declared, total]
    exact ⟨Nat.le_add_right 20 _, hmin, hmax⟩
  have tail : (headerBytes h ++ X).drop 20 = X := List.drop_left' (headerBytes_length h)
  have cut : headerLenBytes h.ctrl = 20 + (headerLenBytes h.ctrl - 20) := (Nat.add_sub_of_le hmin).symm
  have payload : (headerBytes h ++ X).drop (headerLenBytes h.ctrl) = X.drop (headerLenBytes h.ctrl - 20) := by
    rw [cut, ← List.drop_drop, tail, ← cut]
  rw [decodeSeg_of_decodable _ a b decodable, header, declared, tail, payload]

/-- The header length of a well-formed segment ends at its options (R57). -/
theorem headerLenBytes_of_wellFormed (g : Segment) (h : g.WellFormed) :
    headerLenBytes g.ctrl = 20 + g.opt.length := by
  obtain ⟨four, -, len⟩ := h
  rw [headerLenBytes, len]
  omega

theorem decodeSeg_encodeSeg (g : Segment) (h : g.WellFormed) : decodeSeg (encodeSeg g) g.src g.dst = some g := by
  have len := headerLenBytes_of_wellFormed g h
  have hmin : 20 ≤ headerLenBytes g.ctrl := len ▸ Nat.le_add_right 20 _
  have hmax : headerLenBytes g.ctrl ≤ 20 + (g.opt ++ g.pay).length := by
    rw [len, List.length_append]
    exact Nat.add_le_add_left (Nat.le_add_right _ _) 20
  rw [encodeSeg, List.append_assoc, decodeSeg_headerBytes_append _ _ _ _ hmin hmax, len, Nat.add_sub_cancel_left,
    List.take_left, List.drop_left]

/-- Settles O15: a well-formed header cuts the bytes where the options end. -/
theorem decodeUndoesEncode : Obligations.DecodeUndoesEncode := decodeSeg_encodeSeg

/-- Options that fill the header to the length it declares make a well-formed segment (R57). -/
theorem wellFormed_of_opt_length {g : Segment} (hmin : 20 ≤ headerLenBytes g.ctrl)
    (len : g.opt.length = headerLenBytes g.ctrl - 20) : g.WellFormed := by
  have five : 5 ≤ doff g.ctrl := by
    rw [headerLenBytes] at hmin
    omega
  obtain ⟨k, nibble⟩ := Nat.exists_eq_add_of_le five
  have words : g.opt.length = 4 * k := by
    rw [len, headerLenBytes, nibble, Nat.mul_add, Nat.add_sub_cancel_left]
  have few : k ≤ 10 := by
    have := doff_lt g.ctrl
    omega
  refine ⟨?_, ?_, ?_⟩
  · rw [words, Nat.mul_mod_right]
  · rw [words]
    exact Nat.mul_le_mul_left 4 few
  · rw [nibble, words, Nat.mul_div_cancel_left k (by decide)]

/-- What decodes is well-formed: its options fill the header to the declared length (R57, R66). -/
theorem wellFormed_of_decodeSeg (B : Bytes) (a b : Word) (g : Segment) (h : decodeSeg B a b = some g) :
    g.WellFormed := by
  obtain ⟨decodes, lengths⟩ := buffersDecodeExactlyWhenLengthsAllow B a b
  obtain ⟨-, hmin, -⟩ := decodes.mp ⟨g, h⟩
  obtain ⟨opt, -, len, -⟩ := lengths g h
  rw [← len] at opt hmin
  exact wellFormed_of_opt_length hmin opt

/-- A buffer cut at three places is the three parts one after the other. -/
theorem take_append_slice_append_slice (B : Bytes) (m n : Nat) (hm : m ≤ n) :
    B.take m ++ slice B m n ++ slice B n B.length = B := by
  have upTo : B.take m ++ slice B m n = B.take n := by
    rw [slice, ← Nat.min_eq_left hm, ← List.take_take, Nat.min_eq_left hm, List.take_append_drop]
  rw [upTo, slice_to_end, List.take_append_drop]

/-- Settles O16: the header is written back where it was read, before the options and the payload that were cut. -/
theorem encodeUndoesDecode : Obligations.EncodeUndoesDecode := by
  intro B a b g h
  obtain ⟨⟨len, hmin, -⟩, header, opt, pay, src, dst⟩ := decodeSeg_eq_some B a b g h
  refine ⟨?bytes, wellFormed_of_decodeSeg B a b g h, src, dst⟩
  rw [encodeSeg, header, opt, pay, headerBytes_parseHeader B len, take_append_slice_append_slice B _ _ hmin]

/-- Settles O17: where the bytes still decode, options of the length cut would make the segment well-formed. -/
theorem illFormedSegmentsAreRecut : Obligations.IllFormedSegmentsAreRecut := by
  intro g _ ill
  by_cases fits : 20 ≤ headerLenBytes g.ctrl ∧ headerLenBytes g.ctrl ≤ 20 + (g.opt ++ g.pay).length
  case pos =>
    obtain ⟨hmin, hmax⟩ := fits
    have optLen : ((g.opt ++ g.pay).take (headerLenBytes g.ctrl - 20)).length = headerLenBytes g.ctrl - 20 :=
      List.length_take_of_le (Nat.sub_le_of_le_add (Nat.add_comm 20 _ ▸ hmax))
    have decodes := decodeSeg_headerBytes_append g.toHeader (g.opt ++ g.pay) g.src g.dst hmin hmax
    rw [← List.append_assoc] at decodes
    refine .inr ⟨_, decodes, rfl, List.take_append_drop .., optLen, fun same => ?_⟩
    exact ill (wellFormed_of_opt_length hmin ((congrArg List.length same).symm.trans optLen))
  case neg =>
    refine .inl (decodeSeg_of_not_decodable _ _ _ fun ⟨_, hmin, hmax⟩ => fits ?_)
    rw [← headerLenBytes_parseHeader, encodeSeg, List.append_assoc, parseHeader_headerBytes_append] at hmin hmax
    rw [List.length_append, headerBytes_length] at hmax
    exact ⟨hmin, hmax⟩

/-! ### The header row -/

variable (s : State) (h : Header)

/-- The three causes of truncation under a given header (R66). -/
theorem exec_tcpHeader_of_truncated (short : s.ibuf.length < 20 ∨ headerLenBytes h.ctrl < 20 ∨
      s.ibuf.length < headerLenBytes h.ctrl) :
    exec (.tcpHeader h) s = .next ((s.setSegv false).setStatus .truncated) := by
  have none_cut : (if s.ibuf.length < fixedHdr then none else cutSegment h s.ibuf s.inSrc s.inDst) = none := by
    rw [cutSegment, fixedHdr]
    obtain few | small | long := short
    · rw [if_pos few]
    · rw [if_pos small, ite_self]
    · rw [if_pos long, ite_self, ite_self]
  rw [exec, execTcpHeader, none_cut]
  rfl

theorem exec_tcpHeader_of_fits (len : 20 ≤ s.ibuf.length) (hmin : 20 ≤ headerLenBytes h.ctrl)
    (hmax : headerLenBytes h.ctrl ≤ s.ibuf.length) :
    exec (.tcpHeader h) s = .next (((s.setSeg
      { toHeader := h
        opt := (s.ibuf.drop 20).take (headerLenBytes h.ctrl - 20)
        pay := s.ibuf.drop (headerLenBytes h.ctrl)
        src := s.inSrc
        dst := s.inDst }).setSegv true).setStatus .ok) := by
  simp only [exec, execTcpHeader, cutSegment, fixedHdr, Nat.not_lt.mpr len, Nat.not_lt.mpr hmin, gt_iff_lt,
    Nat.not_lt.mpr hmax, if_false, takeDecoded, slice, List.drop_take, List.take_length]

/-- DECODE of a buffer that holds a header goes on with the header it parses (R66). -/
theorem exec_decode_eq_tcpHeader (len : 20 ≤ s.ibuf.length) :
    exec .decode s = exec (.tcpHeader (parseHeader s.ibuf)) s := by
  simp only [exec, execDecode, execTcpHeader, decodeStage, decodeSeg, fixedHdr, Nat.not_lt.mpr len, if_false]

theorem headerLenBytes_lt_iff (ctrl : Half) : headerLenBytes ctrl < 20 ↔ ctrl.toNat / 4096 < 5 := by
  rw [headerLenBytes_eq_div]
  omega

/-- Settles O21: the header length is four times the high nibble of the control word. -/
theorem headerRowIsDecodeOfThatHeader : Obligations.HeaderRowIsDecodeOfThatHeader := by
  refine fun s => ⟨fun h short => ?truncated, fun h len hmin hmax => ?ok, exec_decode_eq_tcpHeader s⟩
  case truncated =>
    rw [← headerLenBytes_eq_div, ← headerLenBytes_lt_iff] at short
    exact exec_tcpHeader_of_truncated s h short
  case ok =>
    have header : 20 ≤ headerLenBytes h.ctrl := Nat.le_of_not_lt (mt (headerLenBytes_lt_iff h.ctrl).mp (Nat.not_lt.mpr hmin))
    rw [← headerLenBytes_eq_div] at hmax ⊢
    exact exec_tcpHeader_of_fits s h len header hmax

end Sys2Proof.Machine
end

section
/-! Decoder and encoder are inverse to each other, format by format (R45, R52, R53, R54, R58). -/

namespace Sys2Proof.Machine

set_option deprecated.oldSectionVars true

/-! ### Codes of commands -/

/-- A code is one of the ten of R53, or illegal (R54). -/
theorem decodeCmd_inverse (c : Byte) :
    encode (decodeCmd c) = [c] ∧ (decodeCmd c).wf = true ∧ (decodeCmd c).format = .cmd8 := by
  have byte (n : Byte) (h : c.toNat = n.toNat) : [n] = [c] := by rw [BitVec.eq_of_toNat_eq h]
  rw [decodeCmd]
  split
  case h_11 =>
    have code : illegalCode c := or_iff_not_imp_left.mpr fun nonzero => by
      have : c.toNat ≠ 0 := fun h => nonzero (BitVec.eq_of_toNat_eq h)
      simp only [imp_false] at *
      omega
    exact ⟨rfl, decide_eq_true code, rfl⟩
  all_goals exact ⟨byte _ ‹_›, rfl, rfl⟩

/-! ### Reply-class keys -/

theorem not_synSet_iff (k : Half) : ¬ synSet k ↔ k.getLsbD 1 = false :=
  (not_congr (synSet_iff k)).trans Bool.eq_false_iff.symm

theorem not_pshSet_iff (k : Half) : ¬ pshSet k ↔ k.getLsbD 3 = false :=
  (not_congr (pshSet_iff k)).trans Bool.eq_false_iff.symm

/-- The row of a key, by the port and the flags SYN and PSH of its two halves (R58). -/
theorem decodeKey_replyKey (p k : Half) :
    decodeKey (replyKey p k) =
      if p ≠ 80 then .rclassUnserved p k else if k.getLsbD 1 then .rclassSyn k
      else if k.getLsbD 3 then .rclassPsh k else .rclassOther k := by
  have port : (replyKey p k).extractLsb' 16 16 = p := append_halves_high p k
  have ctrl : (replyKey p k).extractLsb' 0 16 = k := append_halves_low p k
  rw [decodeKey, classify_replyKey, port, ctrl]
  by_cases served : p = 80
  · subst served
    cases k.getLsbD 1 <;> cases k.getLsbD 3 <;> rfl
  · rw [if_pos served, if_pos served]

theorem encode_decodeKey_replyKey (p k : Half) :
    encode (decodeKey (replyKey p k)) = enc16 p ++ enc16 k := by
  rw [decodeKey_replyKey]
  by_cases served : p = 80
  · subst served
    cases k.getLsbD 1 <;> cases k.getLsbD 3 <;> rfl
  · rw [if_pos served]
    rfl

theorem decodeKey_replyKey_wf (p k : Half) : (decodeKey (replyKey p k)).wf = true := by
  rw [decodeKey_replyKey]
  by_cases served : p = 80
  · rw [if_neg (not_not.mpr served)]
    cases syn : k.getLsbD 1 with
    | true => exact decide_eq_true ((synSet_iff k).mpr syn)
    | false =>
      have noSyn : ¬ synSet k := (not_synSet_iff k).mpr syn
      cases psh : k.getLsbD 3 with
      | true => exact decide_eq_true ⟨noSyn, (pshSet_iff k).mpr psh⟩
      | false => exact decide_eq_true ⟨noSyn, (not_pshSet_iff k).mpr psh⟩
  · rw [if_pos served]
    exact decide_eq_true served

theorem decodeKey_replyKey_format (p k : Half) : (decodeKey (replyKey p k)).format = .rkey32 := by
  rw [decodeKey_replyKey]
  by_cases served : p = 80
  · subst served
    cases k.getLsbD 1 <;> cases k.getLsbD 3 <;> rfl
  · rw [if_pos served]
    rfl

/-- The key written by a row is read as that key. -/
theorem decode_rkey32_enc16 (p k : Half) : decode .rkey32 (enc16 p ++ enc16 k) = .ok (decodeKey (replyKey p k)) := by
  have key : be32 (enc16 p ++ enc16 k) 0 = replyKey p k := congr (congrArg _ (half_halves p)) (half_halves k)
  rw [← key]
  rfl

/-! ### Pseudo-headers -/

section
variable {A : Bytes} {n : Nat} (h : A.length = n) (X : Bytes) (o : Nat)
include h

/-! Reading behind the first `n` bytes. -/

theorem be16_append_right : be16 (A ++ X) (n + o) = be16 X o := by
  have byte (i : Nat) : byteAt (A ++ X) (n + i) = byteAt X i := by
    rw [byteAt, byteAt, List.getD_append_right _ _ _ _ (h.trans_le (Nat.le_add_right n i)), h, Nat.add_sub_cancel_left]
  rw [be16, be16, byte, Nat.add_assoc, byte]

theorem be32_append_right : be32 (A ++ X) (n + o) = be32 X o := by
  rw [be32, be32, be16_append_right h, Nat.add_assoc, be16_append_right h]

end

theorem decode_psh96_pseudoBytes (src dst : Word) (len : Half) :
    decode .psh96 (pseudoBytes src dst len) = .ok (.pseudoHeader src dst len) := by
  have parts : pseudoBytes src dst len = enc32 src ++ (enc32 dst ++ (enc16 protoWord ++ enc16 len)) := by
    rw [pseudoBytes, List.append_assoc, List.append_assoc]
  have srcLen : (enc32 src).length = 4 := rfl
  have dstLen : (enc32 dst).length = 4 := rfl
  have srcField : be32 (pseudoBytes src dst len) 0 = src := by rw [parts, be32_enc32_append]
  have dstField : be32 (pseudoBytes src dst len) 4 = dst := by
    rw [parts]
    exact (be32_append_right srcLen _ 0).trans (be32_enc32_append dst _)
  have proto : be16 (pseudoBytes src dst len) 8 = protoWord := by
    rw [parts]
    exact (be16_append_right srcLen _ 4).trans ((be16_append_right dstLen _ 0).trans (be16_enc16_append protoWord _))
  have lenField : be16 (pseudoBytes src dst len) 10 = len := by
    rw [parts]
    exact (be16_append_right srcLen _ 6).trans ((be16_append_right dstLen _ 2).trans (half_halves len))
  rw [decode, if_pos (pseudoBytes_length src dst len), if_pos proto, srcField, dstField, lenField]

theorem decode_hdr160_headerBytes (h : Header) : decode .hdr160 (headerBytes h) = .ok (.tcpHeader h) := by
  have fields := parseHeader_headerBytes_append h []
  rw [List.append_nil] at fields
  rw [decode, if_pos (headerBytes_length h), fields]

/-- Settles O8: one lemma per format; a reply class is the row of the key it carries, since it is well-formed. -/
theorem decodeOfEncodeIsTheInstruction : Obligations.DecodeOfEncodeIsTheInstruction := by
  intro i wf
  cases i with
  | illegal c => exact decode_cmd8_of_illegalCode c (of_decide_eq_true wf)
  | rclassUnserved p k =>
    have row : decodeKey (replyKey p k) = .rclassUnserved p k := by
      rw [decodeKey_replyKey, if_pos (of_decide_eq_true wf)]
    exact (decode_rkey32_enc16 p k).trans (congrArg Except.ok row)
  | rclassSyn k =>
    have syn : k.getLsbD 1 = true := (synSet_iff k).mp (of_decide_eq_true wf)
    have row : decodeKey (replyKey 80 k) = .rclassSyn k := by
      rw [decodeKey_replyKey, syn]
      rfl
    exact (decode_rkey32_enc16 80 k).trans (congrArg Except.ok row)
  | rclassPsh k =>
    obtain ⟨syn, psh⟩ : ¬ synSet k ∧ pshSet k := of_decide_eq_true wf
    have row : decodeKey (replyKey 80 k) = .rclassPsh k := by
      rw [decodeKey_replyKey, (not_synSet_iff k).mp syn, (pshSet_iff k).mp psh]
      rfl
    exact (decode_rkey32_enc16 80 k).trans (congrArg Except.ok row)
  | rclassOther k =>
    obtain ⟨syn, psh⟩ : ¬ synSet k ∧ ¬ pshSet k := of_decide_eq_true wf
    have row : decodeKey (replyKey 80 k) = .rclassOther k := by
      rw [decodeKey_replyKey, (not_synSet_iff k).mp syn, (not_pshSet_iff k).mp psh]
      rfl
    exact (decode_rkey32_enc16 80 k).trans (congrArg Except.ok row)
  | tcpHeader h => exact decode_hdr160_headerBytes h
  | pseudoHeader src dst len => exact decode_psh96_pseudoBytes src dst len
  | _ => rfl

/-! ### From bytes and back -/

/-- A sequence of `n` bytes, read one by one. -/
theorem map_byteAt_range_length (B : Bytes) (n : Nat) (h : B.length = n) : (List.range n).map (byteAt B) = B := by
  rw [map_byteAt_range B n h.ge, List.take_of_length_le h.le]

theorem enc16_be16_append_enc16_be16 (B : Bytes) (h : B.length = 4) : enc16 (be16 B 0) ++ enc16 (be16 B 2) = B := by
  rw [enc16_be16, enc16_be16]
  exact map_byteAt_range_length B 4 h

theorem pseudoBytes_be (B : Bytes) (h : B.length = 12) (proto : be16 B 8 = protoWord) :
    pseudoBytes (be32 B 0) (be32 B 4) (be16 B 10) = B := by
  rw [pseudoBytes, ← proto, enc32_be32, enc32_be32, enc16_be16, enc16_be16]
  exact map_byteAt_range_length B 12 h

section
variable {B : Bytes} {i : Instr}

theorem decode_cmd8_eq_ok (h : decode .cmd8 B = .ok i) : B.length = 1 ∧ i = decodeCmd (byteAt B 0) := by
  rw [decode] at h
  split_ifs at h with len
  exact ⟨len, (Except.ok.inj h).symm⟩

theorem decode_rkey32_eq_ok (h : decode .rkey32 B = .ok i) : B.length = 4 ∧ i = decodeKey (be32 B 0) := by
  rw [decode] at h
  split_ifs at h with len
  exact ⟨len, (Except.ok.inj h).symm⟩

theorem decode_psh96_eq_ok (h : decode .psh96 B = .ok i) :
    B.length = 12 ∧ be16 B 8 = protoWord ∧ i = .pseudoHeader (be32 B 0) (be32 B 4) (be16 B 10) := by
  rw [decode] at h
  split_ifs at h with len proto
  exact ⟨len, proto, (Except.ok.inj h).symm⟩

theorem decode_hdr160_eq_ok (h : decode .hdr160 B = .ok i) : B.length = 20 ∧ i = .tcpHeader (parseHeader B) := by
  rw [decode] at h
  split_ifs at h with len
  exact ⟨len, (Except.ok.inj h).symm⟩

end

/-- Settles O9: every format writes back the fields it read, and reads all its bytes. -/
theorem encodeOfDecodeIsTheBytes : Obligations.EncodeOfDecodeIsTheBytes := by
  intro f B i h
  cases f with
  | cmd8 =>
    obtain ⟨len, rfl⟩ := decode_cmd8_eq_ok h
    obtain ⟨c, rfl⟩ := List.length_eq_one_iff.mp len
    exact decodeCmd_inverse c
  | rkey32 =>
    obtain ⟨len, rfl⟩ := decode_rkey32_eq_ok h
    have bytes := encode_decodeKey_replyKey (be16 B 0) (be16 B 2)
    rw [enc16_be16_append_enc16_be16 B len] at bytes
    exact ⟨bytes, decodeKey_replyKey_wf .., decodeKey_replyKey_format ..⟩
  | psh96 =>
    obtain ⟨len, proto, rfl⟩ := decode_psh96_eq_ok h
    exact ⟨pseudoBytes_be B len proto, rfl, rfl⟩
  | hdr160 =>
    obtain ⟨len, rfl⟩ := decode_hdr160_eq_ok h
    exact ⟨(headerBytes_parseHeader B len.ge).trans (List.take_of_length_le len.le), rfl, rfl⟩

/-! ### The bits of `H` -/

/-- The byte of a number with `k` bytes behind it (R45). -/
theorem byteAt_beBytes (w k i : Nat) : (byteAt (beBytes (k + i + 1) w) i).toNat = w / 2 ^ (8 * k) % 256 := by
  induction i with
  | zero => exact congrArg (· % 256) (Nat.shiftRight_eq_div_pow ..)
  | succ i ih => exact ih

theorem div_two_pow_mul_add (w k m : Nat) : w / 2 ^ (8 * (k + m)) = w / 2 ^ (8 * k) / 2 ^ (8 * m) := by
  rw [Nat.mul_add, pow_add, Nat.div_div_eq_div_mul]

theorem be16_beBytes (w k o : Nat) : (be16 (beBytes (k + o + 2) w) o).toNat = w / 2 ^ (8 * k) % (256 * 256) := by
  have low : (byteAt (beBytes (k + o + 2) w) (o + 1)).toNat = w / 2 ^ (8 * k) % 256 := byteAt_beBytes w k (o + 1)
  have high : (byteAt (beBytes (k + o + 2) w) o).toNat = w / 2 ^ (8 * k) / 256 % 256 := by
    rw [← Nat.add_right_comm (k + o) 1 1, Nat.add_right_comm k o 1, byteAt_beBytes, div_two_pow_mul_add]
    rfl
  rw [be16, append_bytes_toNat, high, low, Nat.mod_mul, Nat.add_comm, Nat.mul_comm 256]

theorem be32_beBytes (w k o : Nat) : (be32 (beBytes (k + o + 4) w) o).toNat = w / 2 ^ (8 * k) % (65536 * 65536) := by
  have low : (be16 (beBytes (k + o + 4) w) (o + 2)).toNat = w / 2 ^ (8 * k) % 65536 := be16_beBytes w k (o + 2)
  have high : (be16 (beBytes (k + o + 4) w) o).toNat = w / 2 ^ (8 * k) / 65536 % 65536 := by
    have half := be16_beBytes w (k + 2) o
    rw [Nat.add_right_comm k 2 o, div_two_pow_mul_add] at half
    exact half
  rw [be32, append_halves_toNat, high, low, Nat.mod_mul, Nat.add_comm, Nat.mul_comm 65536]

theorem beBytes_length (n w : Nat) : (beBytes n w).length = n := by
  induction n with
  | zero => rfl
  | succ n ih => exact congrArg (· + 1) ih

/-- A table word of 160 bits is read as the header of its bytes (R45). -/
theorem decodeTableWord_160 (w : Nat) (h : w < 2 ^ 160) :
    decodeTableWord 160 w = some (.tcpHeader (parseHeader (beBytes 20 w))) := by
  have bytes : tableBytes .hdr160 160 w = beBytes 20 w := congrArg (beBytes 20) (Nat.mod_eq_of_lt h)
  have format : formatOfBits 160 = some .hdr160 := rfl
  simp only [decodeTableWord, format, bytes, decode, beBytes_length, if_true]

/-- Settles O10: each field stands at its offset in the bytes of `H`, and its bits at 8 times the number of bytes behind it. -/
theorem headerBitPositions : Obligations.HeaderBitPositions := by
  intro w h
  have sport : (be16 (beBytes 20 w) 0).toNat = w / 2 ^ 144 :=
    (be16_beBytes w 18 0).trans (Nat.mod_eq_of_lt (Nat.div_lt_of_lt_mul h))
  have urgp : (be16 (beBytes 20 w) 18).toNat = w % 2 ^ 16 :=
    (be16_beBytes w 0 18).trans (congrArg (· % (256 * 256)) (Nat.div_one w))
  exact ⟨_, decodeTableWord_160 w h, sport, be16_beBytes w 16 2, be32_beBytes w 12 4, be32_beBytes w 8 8,
    be16_beBytes w 6 12, be16_beBytes w 4 14, be16_beBytes w 2 16, urgp⟩

/-! ### The rows of R58 -/

/-- The mask that keeps SYN and PSH keeps nothing where both are clear. -/
theorem otherMatch_iff (k : Half) : k &&& 0x000A = 0 ↔ k.getLsbD 1 = false ∧ k.getLsbD 3 = false := by
  rw [synPshMask_and, synMask_and, pshMask_and]
  cases k.getLsbD 1 <;> cases k.getLsbD 3 <;> decide

section
variable (p k : Half)

theorem classify_eq_unserved_iff : classify (replyKey p k) = .unserved ↔ p ≠ 80 := by
  rw [classify_replyKey]
  by_cases served : p = 80
  · subst served
    cases k.getLsbD 1 <;> cases k.getLsbD 3 <;> decide
  · rw [if_pos served]
    exact iff_of_true rfl served

theorem classify_eq_syn_iff :
    classify (replyKey p k) = .syn ↔ p = 80 ∧ k.getLsbD 1 = true := by
  rw [classify_replyKey]
  by_cases served : p = 80
  · subst served
    cases k.getLsbD 1 <;> cases k.getLsbD 3 <;> decide
  · rw [if_pos served]
    exact iff_of_false nofun fun h => served h.1

theorem classify_eq_psh_iff :
    classify (replyKey p k) = .psh ↔ p = 80 ∧ k.getLsbD 1 = false ∧ k.getLsbD 3 = true := by
  rw [classify_replyKey]
  by_cases served : p = 80
  · subst served
    cases k.getLsbD 1 <;> cases k.getLsbD 3 <;> decide
  · rw [if_pos served]
    exact iff_of_false nofun fun h => served h.1

theorem classify_eq_other_iff :
    classify (replyKey p k) = .other ↔ p = 80 ∧ k.getLsbD 1 = false ∧ k.getLsbD 3 = false := by
  rw [classify_replyKey]
  by_cases served : p = 80
  · subst served
    cases k.getLsbD 1 <;> cases k.getLsbD 3 <;> decide
  · rw [if_pos served]
    exact iff_of_false nofun fun h => served h.1

end

/-- Of two control words that agree on SYN and PSH the class is the same (R58). -/
theorem classify_congr (p k k' : Half) (h : k &&& 0x000A = k' &&& 0x000A) :
    classify (replyKey p k) = classify (replyKey p k') := by
  have bit (i : Nat) (hi : (0x000A : Half).getLsbD i = true) : k.getLsbD i = k'.getLsbD i := by
    have := congrArg (BitVec.getLsbD · i) h
    simpa only [BitVec.getLsbD_and, hi, Bool.and_true] using this
  rw [classify_replyKey, classify_replyKey, bit 1 rfl, bit 3 rfl]

/-- Settles O12: a key is its port and control word, on which the masks of a row act apart. -/
theorem replyClassesAreTheTableRows : Obligations.ReplyClassesAreTheTableRows := by
  refine ⟨append_halves_toNat, fun p k => ⟨classify_eq_unserved_iff p k, classify_eq_syn_iff p k,
    classify_eq_psh_iff p k, classify_eq_other_iff p k⟩, fun K => ?masks, classify_congr⟩
  case masks =>
    obtain ⟨p, k, rfl⟩ : ∃ p k, K = replyKey p k := ⟨_, _, (replyKey_of_parts K).symm⟩
    have row (n v : Half) := replyKey_masked_eq_iff p k n v
    refine ⟨?unserved, ?syn, ?psh, ?other⟩
    case unserved =>
      exact (classify_eq_unserved_iff p k).trans (not_congr ((row 0 0).trans (and_iff_left BitVec.and_zero)).symm)
    case syn =>
      exact (classify_eq_syn_iff p k).trans ((row 0x0002 0x0002).trans (and_congr_right' (synMatch_iff k))).symm
    case psh =>
      exact (classify_eq_psh_iff p k).trans ((row 0x000A 0x0008).trans (and_congr_right' (pshMatch_iff k))).symm
    case other =>
      exact (classify_eq_other_iff p k).trans ((row 0x000A 0).trans (and_congr_right' (otherMatch_iff k))).symm

/-! ### A word of the table as the next step -/

/-- Settles O7: the decoder evaluated on the six words and on the refused one. -/
theorem specWordsDecode : Obligations.SpecWordsDecode :=
  ⟨rfl, rfl, rfl, rfl, rfl, rfl, rfl⟩

/-- Settles O4: the code decodes to `decodeCmd` of it, which the step runs. -/
theorem stepRunsTheDecodedCommand : Obligations.StepRunsTheDecodedCommand := by
  refine ⟨fun s code a rest i program h => ?command, fun s rest program => ?read⟩
  case command =>
    obtain rfl : decodeCmd code = i := Except.ok.inj h
    obtain ⟨-, wf, -⟩ := decodeCmd_inverse code
    exact ⟨wf, step_command s code a rest program⟩
  case read => exact step_host s _ rest program nofun

/-- The row of a key does what RESPOND does with a segment of its class (R58). -/
theorem exec_decodeKey (k : Word) (s : State) (h : s.segv = true) : exec (decodeKey k) s = classStage (classify k) s := by
  rw [decodeKey]
  cases classify k <;> exact if_neg (by simp [h])

/-- RESPOND on a segment with a key is the row of that key. -/
theorem exec_respond_eq_decodeKey (s : State) (h : s.segv = true) :
    exec .respond s = exec (decodeKey (replyKey s.seg.dport s.seg.ctrl)) s := by
  rw [exec_decodeKey _ s h]
  exact respondStage_of_segv s h

/-- The key placed in a segment is the key of that segment. -/
theorem exec_respond_placeKey (k : Word) (s : State) :
    exec .respond (placeKey k s) = exec (decodeKey k) (placeKey k s) := by
  have key : replyKey (placeKey k s).seg.dport (placeKey k s).seg.ctrl = k := replyKey_of_parts k
  rw [exec_respond_eq_decodeKey (placeKey k s) (segv_setSegv _ true), key]

/-- The command put before the actions runs on the state without it. -/
theorem step_nextCommand (code : Byte) (t : State) : step (nextCommand code t) = exec (decodeCmd code) t :=
  step_command _ code t.inputs t.program rfl

theorem nextCommand_with_program (code : Byte) (s t : State) (h : t.program = s.program) :
    { nextCommand code t with program := s.program } = t := by
  rw [← h]
  rfl

/-- The command that uses bytes of a format, on the state that holds them, is their instruction. -/
theorem step_placeBytes (f : Format) (B : Bytes) (i : Instr) (s : State) (h : decode f B = .ok i) :
    step (placeBytes f B s) = exec i { placeBytes f B s with program := s.program } := by
  obtain ⟨bytes, -, -⟩ := encodeOfDecodeIsTheBytes f B i h
  cases f with rw [placeBytes]
  | cmd8 =>
    obtain ⟨-, rfl⟩ := decode_cmd8_eq_ok h
    rw [nextCommand_with_program _ s s rfl, step_nextCommand]
  | rkey32 =>
    obtain ⟨-, rfl⟩ := decode_rkey32_eq_ok h
    rw [nextCommand_with_program _ s (placeKey _ s) rfl, step_nextCommand]
    exact exec_respond_placeKey _ s
  | psh96 =>
    obtain ⟨-, -, rfl⟩ := decode_psh96_eq_ok h
    rw [nextCommand_with_program _ s (s.setIbuf B) rfl, step_nextCommand]
    have same : sum B = sum (encode (.pseudoHeader (be32 B 0) (be32 B 4) (be16 B 10))) := by rw [bytes]
    exact congrArg (fun v => Host.Outcome.next (((s.setIbuf B).setAcc v).setStatus .ok)) same
  | hdr160 =>
    obtain ⟨len, rfl⟩ := decode_hdr160_eq_ok h
    rw [nextCommand_with_program _ s (s.setIbuf B) rfl, step_nextCommand]
    exact exec_decode_eq_tcpHeader (s.setIbuf B) len.ge

/-- Settles O5: the bytes of a table word stand where the command of their format takes them from. -/
theorem fetchedTableWordIsExecuted : Obligations.FetchedTableWordIsExecuted := by
  intro s nbits w i h
  rw [decodeTableWord] at h
  rw [State.withFetchWord]
  split at h
  · cases h
  case h_2 f format =>
    rw [format]
    split at h
    case h_1 j decoded =>
      cases h
      exact step_placeBytes f _ _ s decoded
    · cases h

end Sys2Proof.Machine
end

section
/-! The sum of a segment term by term (R84), the bytes of its pseudo-header (R83), and the generated checksum against the
validity check (R85, R86, R92, R93). -/

namespace Sys2Proof.Machine

set_option deprecated.oldSectionVars true

/-- One pass of a 32-bit value leaves 17 bits, and another 16 (R81). -/
theorem pass_le {v : Nat} (h : v < 4294967296) : v % 65536 + v / 65536 ≤ 0x1FFFE := by omega

theorem pass_le_of_le {v : Nat} (h : v ≤ 0x1FFFE) : v % 65536 + v / 65536 ≤ 0xFFFF := by omega

/-- Two passes bring a 32-bit value into 16 bits (R81). -/
theorem two_passes_le (v : Nat) (h : v < 2 ^ 32) :
    v % 2 ^ 16 + v / 2 ^ 16 ≤ 0x1FFFE ∧
      (v % 2 ^ 16 + v / 2 ^ 16) % 2 ^ 16 + (v % 2 ^ 16 + v / 2 ^ 16) / 2 ^ 16 ≤ 0xFFFF := by
  simp only [Nat.reducePow] at h ⊢
  exact ⟨pass_le h, pass_le_of_le (pass_le h)⟩

/-- Settles O23: the loop of `Fold` and the residue it keeps. -/
theorem foldIsTheResidueModulo65535 : Obligations.FoldIsTheResidueModulo65535 :=
  ⟨fold_of_le, fold_of_gt, fun v => ⟨fold_le v, fold_mod v, fold_eq_zero_iff v,
    fun pos => (fold_eq_ones_iff v).trans (and_iff_right pos)⟩, fun v h _ => two_passes_le v h⟩

variable (g : Segment)

/-! ### Term by term -/

theorem sum_encodeSeg : sum (encodeSeg g) = sum (headerBytes g.toHeader) + sum (g.opt ++ g.pay) := by
  rw [encodeSeg, List.append_assoc, sum_append_of_even _ _ (by simp)]

theorem sum_headerBytes_eq_add_csum :
    sum (headerBytes g.toHeader) = sum (headerBytes (withCsum g 0).toHeader) + g.csum.toNat := by
  rw [sum_headerBytes, sum_headerBytes]
  exact Nat.add_right_comm _ _ _

/-- The checksum field is one word of the sum (R84). -/
theorem segSum_eq_segSum0_add_csum : segSum g = segSum0 g + g.csum.toNat := by
  have pseudo : pseudoHeader (withCsum g 0) = pseudoHeader g := rfl
  have rest : (withCsum g 0).opt ++ (withCsum g 0).pay = g.opt ++ g.pay := rfl
  rw [segSum0, segSum_eq, segSum_eq, pseudo, sum_encodeSeg, sum_encodeSeg, sum_headerBytes_eq_add_csum, rest,
    Nat.add_right_comm _ g.csum.toNat, Nat.add_assoc (sum (pseudoHeader g))]

/-- The listed words of R84. -/
theorem segSum0_eq_terms (h : wireLen g ≤ 65535) :
    segSum0 g = g.src.toNat / 2 ^ 16 + g.src.toNat % 2 ^ 16 + g.dst.toNat / 2 ^ 16 + g.dst.toNat % 2 ^ 16 + 6 +
      wireLen g + g.sport.toNat + g.dport.toNat + g.seq.toNat / 2 ^ 16 + g.seq.toNat % 2 ^ 16 +
      g.ackn.toNat / 2 ^ 16 + g.ackn.toNat % 2 ^ 16 + g.ctrl.toNat + g.win.toNat + g.urgp.toNat + sum (g.opt ++ g.pay) := by
  have len : (BitVec.ofNat 16 (wireLen g)).toNat = wireLen g := Nat.mod_eq_of_lt (Nat.lt_succ_of_le h)
  have zero : (0 : Half).toNat = 0 := rfl
  rw [segSum0, segSum_eq, pseudoHeader, sum_pseudoBytes, sum_encodeSeg, sum_headerBytes, wireLen_withCsum, len]
  simp only [withCsum, zero, Nat.add_zero, Nat.add_assoc]

theorem segSum_le : segSum g ≤ 65535 * (16 + (g.opt.length + g.pay.length + 1) / 2) := by
  have bound := sum_le (pseudoHeader g ++ headerBytes g.toHeader ++ g.opt ++ g.pay)
  simp only [List.length_append, pseudoHeader_length, headerBytes_length] at bound
  rw [segSum]
  omega

/-- The words 6 and the length are in the sum, and the shortest segment has 20 bytes (R84). -/
theorem le_segSum0 (h : wireLen g ≤ 65535) : 26 ≤ segSum0 g := by
  have shortest : 20 ≤ wireLen g := Nat.le_add_right_of_le (Nat.le_add_right 20 _)
  rw [segSum0_eq_terms g h]
  iterate 10 apply Nat.le_add_right_of_le
  exact Nat.add_le_add (Nat.le_add_left 6 _) shortest

/-- Settles O25: the words of the pseudo-header and the header, and the bound of a sum by its length. -/
theorem segmentSumTermByTerm : Obligations.SegmentSumTermByTerm :=
  fun g h => ⟨segSum0_eq_terms g h, segSum_eq_segSum0_add_csum g, by rw [segSum], sum_append_of_even g.opt g.pay,
    le_segSum0 g h, segSum_le g, segSum_lt g h⟩

/-! ### The bytes of a pseudo-header -/

theorem enc16_map_toNat (v : Half) : (enc16 v).map BitVec.toNat = [v.toNat / 256, v.toNat % 256] := by
  have high : (v.extractLsb' 8 8).toNat = v.toNat / 256 := by
    rw [BitVec.extractLsb'_toNat, Nat.shiftRight_eq_div_pow]
    exact Nat.mod_eq_of_lt (Nat.div_lt_of_lt_mul v.isLt)
  have low : (v.extractLsb' 0 8).toNat = v.toNat % 256 := BitVec.extractLsb'_toNat ..
  rw [enc16, List.map_cons, List.map_singleton, high, low]

theorem enc32_map_toNat (v : Word) :
    (enc32 v).map BitVec.toNat =
      [v.toNat / 2 ^ 24, v.toNat / 2 ^ 16 % 256, v.toNat / 2 ^ 8 % 256, v.toNat % 256] := by
  have high : (v.extractLsb' 16 16).toNat = v.toNat / 2 ^ 16 := by
    rw [BitVec.extractLsb'_toNat, Nat.shiftRight_eq_div_pow]
    exact Nat.mod_eq_of_lt (Nat.div_lt_of_lt_mul v.isLt)
  have low : (v.extractLsb' 0 16).toNat = v.toNat % (256 * 256) := BitVec.extractLsb'_toNat ..
  rw [enc32, List.map_append, enc16_map_toNat, enc16_map_toNat, high, low, Nat.div_div_eq_div_mul,
    Nat.mod_mul_right_div_self, Nat.mod_mul_right_mod]
  rfl

/-- Settles O26: each field of the record as its bytes; the length fits its field. -/
theorem pseudoHeaderBytes : Obligations.PseudoHeaderBytes := by
  intro g h
  have len : (BitVec.ofNat 16 (wireLen g)).toNat = 20 + g.opt.length + g.pay.length :=
    Nat.mod_eq_of_lt (Nat.lt_succ_of_le h)
  simp only [pseudoHeader, pseudoBytes, List.map_append, enc32_map_toNat, enc16_map_toNat, len]
  rfl

/-- Settles O35: the sum of six words fits `ACC`. -/
theorem pseudoHeaderRowIsItsSum : Obligations.PseudoHeaderRowIsItsSum := by
  intro src dst len s
  have exact32 := sum_toNat_ofNat (pseudoBytes src dst len) (by rw [pseudoBytes_length]; decide)
  exact ⟨_, exact32.trans (sum_pseudoBytes src dst len), rfl⟩

/-! ### Generated checksums -/

theorem segSum0_pos : 0 < segSum0 g := segSum_pos (withCsum g 0)

/-- 0xFFFF is the complement of a sum of zero only, and no segment sums to zero (R85). -/
theorem compile_segSum0_ne_ones : compile (segSum0 g) ≠ 0xFFFF := by
  intro ones
  have value : 0xFFFF - fold (segSum0 g) = 0xFFFF := (compile_toNat _).symm.trans (congrArg BitVec.toNat ones)
  have nonzero := mt (fold_eq_zero_iff (segSum0 g)).mp (segSum0_pos g).ne'
  omega

theorem compile_segSum0_eq_zero_iff : compile (segSum0 g) = 0 ↔ segSum0 g % 65535 = 0 := by
  rw [compile_eq_zero_iff, fold_eq_ones_iff, and_iff_right (segSum0_pos g)]

/-- Settles O27: `CkGen` sums with the checksum field zeroed. -/
theorem generatedChecksumRange : Obligations.GeneratedChecksumRange :=
  fun g _ _ => ⟨rfl, rfl, compile_segSum0_ne_ones g, compile_segSum0_eq_zero_iff g⟩

/-- A checksum validates where it brings the sum to a multiple of 65535 (R86). -/
theorem ckValid_withCsum_iff_mod (v : Half) : ckValid (withCsum g v) = true ↔ (segSum0 g + v.toNat) % 65535 = 0 := by
  rw [ckValid_iff_mod, segSum_eq_segSum0_add_csum, segSum0_withCsum]
  rfl

/-- Of 16-bit values with one positive the sum is a multiple of 65535 where it is 65535 or twice that. -/
theorem add_mod_ones_eq_zero_iff {f v : Nat} (pos : f ≠ 0) (hf : f ≤ 0xFFFF) (hv : v < 0x10000) :
    (f + v) % 65535 = 0 ↔ v = 0xFFFF - f ∨ (f = 0xFFFF ∧ v = 0xFFFF) := by
  constructor
  · intro mod
    have total : f + v = 65535 ∨ f + v = 131070 := by omega
    clear mod
    omega
  · rintro (rfl | ⟨rfl, rfl⟩)
    · rw [Nat.add_sub_cancel' hf]
    · rfl

/-- The two checksums that validate (R93). -/
theorem ckValid_withCsum_iff (v : Half) :
    ckValid (withCsum g v) = true ↔ v = compile (segSum0 g) ∨ (compile (segSum0 g) = 0x0000 ∧ v = 0xFFFF) := by
  have folded : (segSum0 g + v.toNat) % 65535 = (fold (segSum0 g) + v.toNat) % 65535 :=
    (Nat.ModEq.add_right v.toNat (fold_mod (segSum0 g))).symm
  have nonzero := mt (fold_eq_zero_iff (segSum0 g)).mp (segSum0_pos g).ne'
  rw [ckValid_withCsum_iff_mod, folded, add_mod_ones_eq_zero_iff nonzero (fold_le _) v.isLt, compile_eq_zero_iff,
    ← BitVec.toNat_inj, ← BitVec.toNat_inj, compile_toNat]
  rfl

theorem ckValid_ckGen : ckValid (ckGen g) = true := (ckValid_withCsum_iff g _).mpr (.inl rfl)

/-- Settles O30: the complement and the residue decide which values bring the sum to a multiple of 65535. -/
theorem whichChecksumsValidate : Obligations.WhichChecksumsValidate := fun g v _ => ckValid_withCsum_iff g v

/-- Settles O29: the generated checksum is the first of the two that validate. -/
theorem generatedChecksumIsValid : Obligations.GeneratedChecksumIsValid := fun g _ => ckValid_ckGen g

end Sys2Proof.Machine
end

section
/-! What RESPOND decides of a segment, as a function of the configuration, the collaborators' answers and the segment alone
(R102 to R105, R110): the stages RESPOND and PROCESS as that decision on the state. -/

namespace Sys2Proof.Machine

set_option deprecated.oldSectionVars true

/-- The decision on a segment: a reply that fits (`next`), no reply, with the status for it (`refused`), or a collaborator
that is asked and does not answer (`fault`, U6). -/
abbrev Verdict := Host.Outcome Segment Fault Status

/-- A reply is given where it fits `MAX_LEN` (R110). -/
def fitVerdict (c : Config) (out : Segment) : Verdict :=
  if c.maxLen < wireLen out then .refused .lengthOverflow else .next out

/-- The decision of a reply class (R102 to R105). -/
def classVerdict (k : ReplyClass) (c : Config) (a : Inputs) (g : Segment) : Verdict :=
  match k with
  | .unserved => .refused .policyReject
  | .syn => a.rand.elim (.fault .randomSourceSilent) fun r => fitVerdict c (synReply c g r)
  | .psh => if a.httpUp then fitVerdict c (pshReply c g (httpGen c)) else .fault .httpGeneratorSilent
  | .other => .refused .unhandled

/-- The decision on a segment by its own class (R58). -/
def verdict (c : Config) (a : Inputs) (g : Segment) : Verdict := classVerdict (classify (replyKey g.dport g.ctrl)) c a g

/-- The answer of the stage RESPOND (R110). -/
def Verdict.answer (s : State) : Verdict → Answer
  | .refused st => .next (unreplied st s)
  | .next out => .next (replied out s)
  | .fault f => .fault f

/-- The answer of PROCESS once its buffer has decoded to `g` (R111). -/
def Verdict.processed (g : Segment) (s : State) : Verdict → Answer
  | .refused st => .next ((unreplied st (s.setSeg g)).setObuf [])
  | .next out => .next ((replied out s).setObuf (encodeSeg out))
  | .fault f => .fault f

theorem answer_with_inputs {s t : State} {v : Verdict} (h : v.answer s = .next t) (a : Inputs) :
    v.answer { s with inputs := a } = .next { t with inputs := a } := by
  cases v <;> cases h <;> rfl

/-! ### The decisions one by one -/

section
variable {k : ReplyClass} {c : Config} {a : Inputs} {g : Segment}

theorem fitVerdict_of_fits {out : Segment} (h : wireLen out ≤ c.maxLen) : fitVerdict c out = .next out :=
  if_neg (Nat.not_lt.mpr h)

theorem fitVerdict_of_too_long {out : Segment} (h : c.maxLen < wireLen out) :
    fitVerdict c out = .refused .lengthOverflow :=
  if_pos h

theorem classVerdict_syn_of_draw {r : Word} (h : a.rand = some r) :
    classVerdict .syn c a g = fitVerdict c (synReply c g r) := by
  change Option.elim a.rand _ _ = _
  rw [h, Option.elim_some]

theorem classVerdict_syn_of_silent (h : a.rand = none) : classVerdict .syn c a g = .fault .randomSourceSilent := by
  change Option.elim a.rand _ _ = _
  rw [h, Option.elim_none]

theorem classVerdict_psh_of_up (h : a.httpUp = true) :
    classVerdict .psh c a g = fitVerdict c (pshReply c g (httpGen c)) :=
  if_pos h

theorem classVerdict_psh_of_silent (h : a.httpUp = false) : classVerdict .psh c a g = .fault .httpGeneratorSilent :=
  if_neg (ne_true_of_eq_false h)

/-- Every decision of a class: what it is, and when. -/
theorem classVerdict_cases (k : ReplyClass) (c : Config) (a : Inputs) (g : Segment) :
    (k = .unserved ∧ classVerdict k c a g = .refused .policyReject) ∨
    (k = .other ∧ classVerdict k c a g = .refused .unhandled) ∨
    (k = .syn ∧ a.rand = none ∧ classVerdict k c a g = .fault .randomSourceSilent) ∨
    (k = .syn ∧ ∃ r, a.rand = some r ∧ classVerdict k c a g = fitVerdict c (synReply c g r)) ∨
    (k = .psh ∧ a.httpUp = false ∧ classVerdict k c a g = .fault .httpGeneratorSilent) ∨
    (k = .psh ∧ a.httpUp = true ∧ classVerdict k c a g = fitVerdict c (pshReply c g (httpGen c))) := by
  cases k with
  | unserved => exact .inl ⟨rfl, rfl⟩
  | other => exact .inr (.inl ⟨rfl, rfl⟩)
  | syn =>
    cases rand : a.rand with
    | none => exact .inr (.inr (.inl ⟨rfl, rfl, classVerdict_syn_of_silent rand⟩))
    | some r => exact .inr (.inr (.inr (.inl ⟨rfl, r, rfl, classVerdict_syn_of_draw rand⟩)))
  | psh =>
    cases http : a.httpUp with
    | false => exact .inr (.inr (.inr (.inr (.inl ⟨rfl, rfl, classVerdict_psh_of_silent http⟩))))
    | true => exact .inr (.inr (.inr (.inr (.inr ⟨rfl, rfl, classVerdict_psh_of_up http⟩))))

theorem fitVerdict_eq_next {out out' : Segment} (h : fitVerdict c out = .next out') :
    wireLen out ≤ c.maxLen ∧ out' = out := by
  obtain long | fits := lt_or_ge c.maxLen (wireLen out)
  · cases (fitVerdict_of_too_long long).symm.trans h
  · exact ⟨fits, (Host.Outcome.next.inj ((fitVerdict_of_fits fits).symm.trans h)).symm⟩

theorem fitVerdict_eq_refused {out : Segment} {st : Status} (h : fitVerdict c out = .refused st) :
    st = .lengthOverflow := by
  obtain long | fits := lt_or_ge c.maxLen (wireLen out)
  · exact (Host.Outcome.refused.inj ((fitVerdict_of_too_long long).symm.trans h)).symm
  · cases (fitVerdict_of_fits fits).symm.trans h

theorem fitVerdict_ne_fault (out : Segment) (f : Fault) : fitVerdict c out ≠ .fault f := by
  intro h
  obtain long | fits := lt_or_ge c.maxLen (wireLen out)
  · cases (fitVerdict_of_too_long long).symm.trans h
  · cases (fitVerdict_of_fits fits).symm.trans h

/-- A reply is that of class SYN or of class PSH, and fits (R103, R104, R110). -/
theorem classVerdict_eq_next {out : Segment} (h : classVerdict k c a g = .next out) :
    wireLen out ≤ c.maxLen ∧
      (k = .syn ∧ (∃ r, out = synReply c g r) ∨ k = .psh ∧ out = pshReply c g (httpGen c)) := by
  obtain ⟨-, e⟩ | ⟨-, e⟩ | ⟨-, -, e⟩ | ⟨rfl, r, -, e⟩ | ⟨-, -, e⟩ | ⟨rfl, -, e⟩ := classVerdict_cases k c a g <;>
    have decided := e.symm.trans h
  · cases decided
  · cases decided
  · cases decided
  · obtain ⟨fits, rfl⟩ := fitVerdict_eq_next decided
    exact ⟨fits, .inl ⟨rfl, r, rfl⟩⟩
  · cases decided
  · obtain ⟨fits, rfl⟩ := fitVerdict_eq_next decided
    exact ⟨fits, .inr ⟨rfl, rfl⟩⟩

/-- Without a reply the outcome is that of the class, or the reply was too long (R102 to R105, R110). -/
theorem classVerdict_eq_refused {st : Status} (h : classVerdict k c a g = .refused st) :
    k = .unserved ∧ st = .policyReject ∨ k = .other ∧ st = .unhandled ∨
      (k = .syn ∨ k = .psh) ∧ st = .lengthOverflow := by
  obtain ⟨rfl, e⟩ | ⟨rfl, e⟩ | ⟨-, -, e⟩ | ⟨rfl, r, -, e⟩ | ⟨-, -, e⟩ | ⟨rfl, -, e⟩ := classVerdict_cases k c a g <;>
    have decided := e.symm.trans h
  · exact .inl ⟨rfl, (Host.Outcome.refused.inj decided).symm⟩
  · exact .inr (.inl ⟨rfl, (Host.Outcome.refused.inj decided).symm⟩)
  · cases decided
  · exact .inr (.inr ⟨.inl rfl, fitVerdict_eq_refused decided⟩)
  · cases decided
  · exact .inr (.inr ⟨.inr rfl, fitVerdict_eq_refused decided⟩)

/-- A class is stuck exactly where it asks a collaborator that does not answer (U6). -/
theorem classVerdict_eq_fault_iff {f : Fault} :
    classVerdict k c a g = .fault f ↔
      (k = .syn ∧ a.rand = none ∧ f = .randomSourceSilent) ∨
      (k = .psh ∧ a.httpUp = false ∧ f = .httpGeneratorSilent) := by
  constructor
  case mpr =>
    rintro (⟨rfl, rand, rfl⟩ | ⟨rfl, http, rfl⟩)
    · exact classVerdict_syn_of_silent rand
    · exact classVerdict_psh_of_silent http
  case mp =>
    intro h
    obtain ⟨-, e⟩ | ⟨-, e⟩ | ⟨rfl, rand, e⟩ | ⟨-, r, -, e⟩ | ⟨rfl, http, e⟩ | ⟨-, -, e⟩ := classVerdict_cases k c a g <;>
      have decided := e.symm.trans h
    · cases decided
    · cases decided
    · exact .inl ⟨rfl, rand, (Host.Outcome.fault.inj decided).symm⟩
    · exact absurd decided (fitVerdict_ne_fault _ f)
    · exact .inr ⟨rfl, http, (Host.Outcome.fault.inj decided).symm⟩
    · exact absurd decided (fitVerdict_ne_fault _ f)

/-- A decision that is not stuck asks one collaborator at most: the random source for class SYN, the generator for class
PSH. -/
theorem classVerdict_congr {a' : Inputs} (h : ∀ f, classVerdict k c a g ≠ .fault f) (syn : k = .syn → a'.rand = a.rand)
    (psh : k = .psh → a'.httpUp = true) : classVerdict k c a' g = classVerdict k c a g := by
  cases k with
  | unserved => rfl
  | other => rfl
  | syn =>
    change Option.elim a'.rand _ _ = _
    rw [syn rfl]
    rfl
  | psh =>
    have up : a.httpUp = true := Bool.not_eq_false _ ▸ fun down => h _ (classVerdict_psh_of_silent down)
    exact (classVerdict_psh_of_up (psh rfl)).trans (classVerdict_psh_of_up up).symm

theorem verdict_refused_ne_ok {st : Status} (h : verdict c a g = .refused st) : st ≠ .ok := by
  obtain ⟨-, rfl⟩ | ⟨-, rfl⟩ | ⟨-, rfl⟩ := classVerdict_eq_refused h <;> exact nofun

/-- The decision on a segment is stuck exactly where its answer asks a silent collaborator (U6). -/
theorem verdict_eq_fault_iff {f : Fault} : verdict c a g = .fault f ↔ Unanswered a g f := by
  refine classVerdict_eq_fault_iff.trans ?_
  rw [classify_eq_syn_iff, classify_eq_psh_iff]
  cases f with
  | randomSourceSilent =>
    constructor
    · rintro (⟨⟨port, syn⟩, rand, -⟩ | ⟨-, -, ⟨⟩⟩)
      exact ⟨port, syn, rand⟩
    · rintro ⟨port, syn, rand⟩
      exact .inl ⟨⟨port, syn⟩, rand, rfl⟩
  | httpGeneratorSilent =>
    constructor
    · rintro (⟨-, -, ⟨⟩⟩ | ⟨⟨port, syn, psh⟩, http, -⟩)
      exact ⟨port, syn, psh, http⟩
    · rintro ⟨port, syn, psh, http⟩
      exact .inr ⟨⟨port, syn, psh⟩, http, rfl⟩

/-- A reply is that of the segment's class (R103, R104), and fits. -/
theorem verdict_eq_next {out : Segment} (h : verdict c a g = .next out) :
    g.dport = 80 ∧ wireLen out ≤ c.maxLen ∧ ((∃ r, out = synReply c g r) ∨ out = pshReply c g (httpGen c)) := by
  obtain ⟨fits, ⟨syn, reply⟩ | ⟨psh, reply⟩⟩ := classVerdict_eq_next h
  · exact ⟨((classify_eq_syn_iff _ _).mp syn).1, fits, .inl reply⟩
  · exact ⟨((classify_eq_psh_iff _ _).mp psh).1, fits, .inr reply⟩

end

/-! ### The stage RESPOND as its decision -/

section
variable (s : State)

theorem giveReply_eq_answer (out : Segment) : giveReply out s = (fitVerdict s.cfg out).answer s := by
  rw [giveReply_eq]
  obtain long | fits := lt_or_ge s.cfg.maxLen (wireLen out)
  · rw [if_pos long, fitVerdict_of_too_long long]
    rfl
  · rw [if_neg (Nat.not_lt.mpr fits), fitVerdict_of_fits fits]
    rfl

theorem classStage_eq_answer (k : ReplyClass) : classStage k s = (classVerdict k s.cfg s.inputs s.seg).answer s := by
  cases k with
  | unserved => rfl
  | other => rfl
  | syn =>
    rw [classStage, synStage]
    cases rand : s.inputs.rand with
    | none => rw [classVerdict_syn_of_silent rand]; rfl
    | some r => rw [classVerdict_syn_of_draw rand]; exact giveReply_eq_answer s _
  | psh =>
    rw [classStage, pshStage]
    cases http : s.inputs.httpUp with
    | false => rw [classVerdict_psh_of_silent http]; rfl
    | true => rw [classVerdict_psh_of_up http]; exact giveReply_eq_answer s _

theorem exec_respond_eq_answer (h : s.segv = true) : exec .respond s = (verdict s.cfg s.inputs s.seg).answer s :=
  (respondStage_of_segv s h).trans (classStage_eq_answer s _)

end

/-! ### RESPOND that ends `OK` -/

theorem statusCode_eq_zero_iff (st : Status) : statusCode st = 0 ↔ st = .ok :=
  ⟨statusCode_injective st .ok, congrArg statusCode⟩

/-- A RESPOND that ends `OK` has given a reply (R110). -/
theorem exec_respond_ok {s t : State} (h : exec .respond s = .next t) (ok : t.status = 0x00) :
    s.segv = true ∧ ∃ out, verdict s.cfg s.inputs s.seg = .next out ∧ t = replied out s := by
  cases segv : s.segv with
  | false =>
    rw [exec_respond_of_not_segv s segv] at h
    cases h
    cases ok
  | true =>
    rw [exec_respond_eq_answer s segv] at h
    cases decided : verdict s.cfg s.inputs s.seg with (rw [decided] at h; cases h)
    | refused st => exact absurd ((statusCode_eq_zero_iff st).mp ok) (verdict_refused_ne_ok decided)
    | next out => exact ⟨rfl, out, rfl, rfl⟩

end Sys2Proof.Machine
end

section
/-! What holds of every reply (R109, R113). -/

namespace Sys2Proof.Machine

set_option deprecated.oldSectionVars true

variable (opt : Bytes) (flags : Half)

/-- Below bit 12 the control word of a reply is its flags (R109). -/
theorem replyCtrl_getLsbD (i : Nat) (h : i < 12) : (replyCtrl opt flags).getLsbD i = flags.getLsbD i := by
  have nibble : ((fixedHdr + opt.length) / 4 * 4096).testBit i = false := by
    rw [show 4096 = 2 ^ 12 from rfl, Nat.testBit_mul_two_pow, decide_eq_false (Nat.not_le.mpr h), Bool.false_and]
  rw [replyCtrl, BitVec.getLsbD_or, BitVec.getLsbD_ofNat, nibble, Bool.and_false, Bool.false_or]

theorem replyCtrl_and_reserved : replyCtrl opt flags &&& 0x0FE0 = flags &&& 0x0FE0 := by
  refine BitVec.eq_of_getLsbD_eq fun i hi => ?_
  rw [BitVec.getLsbD_and, BitVec.getLsbD_and]
  obtain low | high := lt_or_ge i 12
  · rw [replyCtrl_getLsbD opt flags i low]
  · have clear : (0x0FE0 : Half).getLsbD i = false := by interval_cases i <;> rfl
    rw [clear, Bool.and_false, Bool.and_false]

/-- The flags of a reply of either kind: ACK, and SYN or FIN (R103, R104, R113). -/
theorem replyCtrl_flags (kind : flags = synAck ∨ flags = ackFin) :
    replyCtrl opt flags &&& 0x0FE0 = 0 ∧ (replyCtrl opt flags).getLsbD 4 = true ∧
      (replyCtrl opt flags).getLsbD 3 = false ∧ (replyCtrl opt flags).getLsbD 2 = false ∧
      (replyCtrl opt flags).getLsbD 1 = !(replyCtrl opt flags).getLsbD 0 := by
  have bit (i : Nat) (h : i < 12) := replyCtrl_getLsbD opt flags i h
  rw [replyCtrl_and_reserved, bit 4 (by decide), bit 3 (by decide), bit 2 (by decide), bit 1 (by decide),
    bit 0 (by decide)]
  obtain rfl | rfl := kind <;> decide

/-- Options of whole words that fit their buffer make a well-formed reply (R57, R109). -/
theorem mkReply_wellFormed (c : Config) (g : Segment) (seq ackn : Word) (pay : Bytes) (four : opt.length % 4 = 0)
    (bound : opt.length ≤ 40) (low : flags.toNat < 4096) : (mkReply c g seq ackn opt pay flags).WellFormed := by
  have len : doff (replyCtrl opt flags) = 5 + opt.length / 4 := by
    have nibble : (20 + opt.length) / 4 = 5 + opt.length / 4 := Nat.mul_add_div (Nat.succ_pos 3) 5 opt.length
    rw [doff_eq_div, replyCtrl_toNat opt flags bound low, nibble, Nat.mul_comm]
    exact (Nat.mul_add_div (Nat.succ_pos 4095) _ _).trans (congrArg _ (Nat.div_eq_of_lt low))
  exact ⟨four, bound, len⟩

/-- Settles O43: a reply is that of class SYN, with the inbound options and its own flags, or that of class PSH, without
options. -/
theorem everyReplyIsProper : Obligations.EveryReplyIsProper := by
  intro s t inv h ok
  obtain ⟨-, ⟨-, -, opts, -⟩, -⟩ := inv
  have opts : s.seg.opt.length ≤ 40 := opts
  obtain ⟨segv, out, reply, rfl⟩ := exec_respond_ok h ok
  obtain ⟨port, fits, kind⟩ := verdict_eq_next reply
  have again : out.dport ≠ 80 → ∃ u, exec .respond (replied out s) = .next u ∧ u.status = 0x02 := fun other =>
    ⟨_, (respondWithoutReply _ ((segv_eq_getLsbD _).symm.trans (replied_segv s out))).1 other, rfl⟩
  simp only [replied_seg, encodeSeg_length]
  obtain ⟨r, rfl⟩ | rfl := kind
  · obtain ⟨reserved, ack, psh, rst, kinds⟩ := replyCtrl_flags s.seg.opt synAck (.inl rfl)
    refine ⟨ckValid_ckGen _, port, rfl, rfl, rfl, reserved, ack, psh, rst, kinds, fun four => ⟨?wf, fits⟩, fun _ => rfl,
      fun fin => ?fin, again⟩
    case wf => exact mkReply_wellFormed s.seg.opt synAck _ _ _ _ _ four opts (by decide)
    case fin => exact absurd ((replyCtrl_getLsbD s.seg.opt synAck 0 (by decide)).symm.trans fin) (by decide)
  · obtain ⟨reserved, ack, psh, rst, kinds⟩ := replyCtrl_flags [] ackFin (.inr rfl)
    refine ⟨ckValid_ckGen _, port, rfl, rfl, rfl, reserved, ack, psh, rst, kinds, fun _ => ⟨?wf, fits⟩, fun syn => ?syn,
      fun _ => pshReply_wireLen .., again⟩
    case wf => exact mkReply_wellFormed [] ackFin _ _ _ _ _ rfl (Nat.zero_le _) (by decide)
    case syn => exact absurd ((replyCtrl_getLsbD [] ackFin 1 (by decide)).symm.trans syn) (by decide)

end Sys2Proof.Machine
end

section
/-! RESPOND and the reply-class rows, outcome by outcome (R58, R110). -/

namespace Sys2Proof.Machine

set_option deprecated.oldSectionVars true

/-- Settles O38: the PSH reply asks the generator, and the answer makes it too long. -/
theorem respondToPshTooLong : Obligations.RespondToPshTooLong := by
  intro s h port syn psh http long
  rw [← segv_eq_getLsbD] at h
  rw [← pshReply_wireLen] at long
  exact exec_respond_of_reply_too_long s 0 h _ (respondPolicy_of_psh _ _ 0 _ port syn psh)
    (answers_of_not_syn _ _ 0 syn http) long

/-- Settles O40: RESPOND tests `SEGV` first. -/
theorem respondWithoutSegment : Obligations.RespondWithoutSegment := by
  intro s h
  rw [← segv_eq_getLsbD] at h
  exact exec_respond_of_not_segv s h

/-- Settles O44: the decision asks the collaborator of its class only, and the answers stand in no register. -/
theorem collaboratorsMatterOnlyOnTheirPath : Obligations.CollaboratorsMatterOnlyOnTheirPath := by
  intro s t a h syn psh
  cases segv : s.segv with
  | false =>
    rw [exec_respond_of_not_segv s segv] at h
    cases h
    exact exec_respond_of_not_segv _ segv
  | true =>
    rw [exec_respond_eq_answer s segv] at h
    have answered (f : Fault) : verdict s.cfg s.inputs s.seg ≠ .fault f := by
      intro stuck
      rw [stuck] at h
      cases h
    have same : verdict s.cfg a s.seg = verdict s.cfg s.inputs s.seg := classVerdict_congr answered syn psh
    refine (exec_respond_eq_answer { s with inputs := a } segv).trans ?_
    rw [same]
    exact answer_with_inputs h a

section
variable (s : State)

/-! A row on a segment does what its class does, without one it only clears `REPLY` (R58, R110). -/

section
variable (h : s.segv = false)
include h

theorem exec_rclassUnserved_of_not_segv (p k : Half) :
    exec (.rclassUnserved p k) s = .next ((s.setReply false).setStatus .noSegment) :=
  if_pos h

theorem exec_rclassSyn_of_not_segv (k : Half) :
    exec (.rclassSyn k) s = .next ((s.setReply false).setStatus .noSegment) :=
  if_pos h

theorem exec_rclassPsh_of_not_segv (k : Half) :
    exec (.rclassPsh k) s = .next ((s.setReply false).setStatus .noSegment) :=
  if_pos h

theorem exec_rclassOther_of_not_segv (k : Half) :
    exec (.rclassOther k) s = .next ((s.setReply false).setStatus .noSegment) :=
  if_pos h

end

variable (h : s.segv = true)
include h

theorem exec_rclassUnserved_of_segv (p k : Half) : exec (.rclassUnserved p k) s = .next (unreplied .policyReject s) :=
  if_neg (ne_false_of_eq_true h)

theorem exec_rclassOther_of_segv (k : Half) : exec (.rclassOther k) s = .next (unreplied .unhandled s) :=
  if_neg (ne_false_of_eq_true h)

theorem exec_rclassSyn_of_segv (k : Half) :
    exec (.rclassSyn k) s = (classVerdict .syn s.cfg s.inputs s.seg).answer s :=
  (if_neg (ne_false_of_eq_true h)).trans (classStage_eq_answer s .syn)

theorem exec_rclassPsh_of_segv (k : Half) :
    exec (.rclassPsh k) s = (classVerdict .psh s.cfg s.inputs s.seg).answer s :=
  (if_neg (ne_false_of_eq_true h)).trans (classStage_eq_answer s .psh)

end

/-- Settles O41: each row on a segment, a SYN reply being no longer than 60 bytes; and every row without one. -/
theorem replyClassRowsComplete : Obligations.ReplyClassRowsComplete := by
  refine ⟨fun s inv h => ?rows, fun s p k h => ?noSegment⟩
  case noSegment =>
    rw [← segv_eq_getLsbD] at h
    simp only [List.forall_mem_cons]
    exact ⟨exec_rclassUnserved_of_not_segv s h p k, exec_rclassSyn_of_not_segv s h k, exec_rclassPsh_of_not_segv s h k,
      exec_rclassOther_of_not_segv s h k, List.forall_mem_nil _⟩
  case rows =>
    rw [← segv_eq_getLsbD] at h
    obtain ⟨⟨hmin, -⟩, ⟨-, -, opts, -⟩, -⟩ := inv
    have opts : s.seg.opt.length ≤ 40 := opts
    refine ⟨fun _ => ?unserved, fun r port syn rand => ?syn, fun port syn psh http => ?psh, fun _ _ _ => ?other⟩
    case unserved => exact (exec_rclassUnserved_of_segv s h _ _).trans (congrArg _ (unreplied_eq s _))
    case other => exact (exec_rclassOther_of_segv s h _).trans (congrArg _ (unreplied_eq s _))
    case syn =>
      have fits : wireLen (synReply s.cfg s.seg r) ≤ s.cfg.maxLen := by rw [synReply_wireLen]; omega
      rw [exec_rclassSyn_of_segv s h, classVerdict_syn_of_draw rand, fitVerdict_of_fits fits, ← replied_eq_of_policy s s.seg _ r (respondPolicy_of_syn _ _ r _ port syn)]
      rfl
    case psh =>
      rw [exec_rclassPsh_of_segv s h, classVerdict_psh_of_up http, ← pshReply_wireLen s.cfg s.seg,
        ← replied_eq_of_policy s s.seg _ 0 (respondPolicy_of_psh _ _ 0 _ port syn psh)]
      refine ⟨fun fits => ?_, fun long => ?_⟩
      · rw [fitVerdict_of_fits fits]
        rfl
      · rw [fitVerdict_of_too_long long]
        exact congrArg _ (unreplied_eq s _)

end Sys2Proof.Machine
end

section
/-! PROCESS as the decision on the segment it decodes (R60, R111). -/

namespace Sys2Proof.Machine

set_option deprecated.oldSectionVars true

section
variable (s : State) (g : Segment)

theorem exec_process_eq_processed (h : decodeSeg s.ibuf s.inSrc s.inDst = some g) :
    exec .process s = (verdict s.cfg s.inputs g).processed g s := by
  have stage : respondStage (decoded g s) = (verdict s.cfg s.inputs g).answer (decoded g s) :=
    exec_respond_eq_answer (decoded g s) (segv_setSegv _ true)
  cases decided : verdict s.cfg s.inputs g with rw [decided] at stage
  | refused st =>
    rw [exec_process_of_unreplied s g st h (verdict_refused_ne_ok decided) stage, unreplied_decoded]
    rfl
  | next out =>
    obtain ⟨-, fits, -⟩ := verdict_eq_next decided
    rw [exec_process_of_replied s g out h fits stage, replied_decoded]
    rfl
  | fault f =>
    rw [exec_process_of_decoded s g h, stage]
    rfl

/-- PROCESS gives no reply where the decision on its segment is a refusal (R111). -/
theorem exec_process_of_verdict_refused (st : Status) (h : decodeSeg s.ibuf s.inSrc s.inDst = some g)
    (decided : verdict s.cfg s.inputs g = .refused st) :
    exec .process s = .next ((unreplied st (s.setSeg g)).setObuf []) :=
  (exec_process_eq_processed s g h).trans (congrArg (Verdict.processed g s) decided)

/-- PROCESS encodes the reply decided (R111). -/
theorem exec_process_of_verdict_next (out : Segment) (h : decodeSeg s.ibuf s.inSrc s.inDst = some g)
    (decided : verdict s.cfg s.inputs g = .next out) :
    exec .process s = .next ((replied out s).setObuf (encodeSeg out)) :=
  (exec_process_eq_processed s g h).trans (congrArg (Verdict.processed g s) decided)

end

/-- What PROCESS has left, and why (R111). -/
theorem exec_process_eq_next {s t : State} (h : exec .process s = .next t) :
    (decodeSeg s.ibuf s.inSrc s.inDst = none ∧ t = (unreplied .truncated s).setObuf []) ∨
    (∃ g st, decodeSeg s.ibuf s.inSrc s.inDst = some g ∧ verdict s.cfg s.inputs g = .refused st ∧
      t = (unreplied st (s.setSeg g)).setObuf []) ∨
    (∃ g out, decodeSeg s.ibuf s.inSrc s.inDst = some g ∧ verdict s.cfg s.inputs g = .next out ∧
      t = (replied out s).setObuf (encodeSeg out)) := by
  cases buffer : decodeSeg s.ibuf s.inSrc s.inDst with
  | none =>
    rw [exec_process_of_truncated s buffer] at h
    exact .inl ⟨rfl, (Host.Outcome.next.inj h).symm⟩
  | some g =>
    rw [exec_process_eq_processed s g buffer] at h
    cases decided : verdict s.cfg s.inputs g with rw [decided] at h
    | refused st => exact .inr (.inl ⟨g, st, rfl, decided, (Host.Outcome.next.inj h).symm⟩)
    | next out => exact .inr (.inr ⟨g, out, rfl, decided, (Host.Outcome.next.inj h).symm⟩)
    | fault f => cases h

/-- A PROCESS that ends `OK` has given a reply to the segment it decoded, and encoded it (R111). -/
theorem exec_process_ok {s t : State} (h : exec .process s = .next t) (ok : t.status = 0x00) :
    ∃ g out, decodeSeg s.ibuf s.inSrc s.inDst = some g ∧ verdict s.cfg s.inputs g = .next out ∧
      t = (replied out s).setObuf (encodeSeg out) := by
  obtain ⟨-, rfl⟩ | ⟨g, st, -, decided, rfl⟩ | reply := exec_process_eq_next h
  · cases ok
  · exact absurd ((statusCode_eq_zero_iff st).mp ok) (verdict_refused_ne_ok decided)
  · exact reply

/-- Settles O46: the host's three commands take the same decision on the same segment. -/
theorem processEqualsTheHostSequence : Obligations.ProcessEqualsTheHostSequence := by
  intro s t a h ok
  rw [step_command _ 0x08 a [] rfl] at h
  obtain ⟨g, out, buffer, reply, rfl⟩ := exec_process_ok h ok
  have buffer : decodeSeg s.ibuf s.inSrc s.inDst = some g := buffer
  have reply : verdict s.cfg a g = .next out := reply
  obtain ⟨-, fits, -⟩ := verdict_eq_next reply
  refine ⟨decoded g { s with program := [.command 0x07 a, .command 0x02 a], inputs := a },
    replied out (decoded g { s with program := [.command 0x02 a], inputs := a }), ?decode, rfl, ?respond, rfl, ?encode⟩
  case decode =>
    have run := exec_decode_of_eq_some { s with program := [.command 0x07 a, .command 0x02 a], inputs := a } g buffer
    exact (step_command _ 0x01 a [.command 0x07 a, .command 0x02 a] rfl).trans run
  case respond =>
    have run := exec_respond_eq_answer (decoded g { s with program := [.command 0x02 a], inputs := a })
      (segv_setSegv _ true)
    exact (step_command _ 0x07 a _ rfl).trans (run.trans (congrArg (Verdict.answer _) reply))
  case encode =>
    have run := exec_encode_of_fits (replied out (decoded g { s with program := [], inputs := a })) (replied_segv _ out) fits
    have same := replied_decoded { s with program := [], inputs := a } g out
    exact (step_command _ 0x02 a [] rfl).trans
      (run.trans (congrArg (fun u => Host.Outcome.next (u.setObuf (encodeSeg out))) same))

/-- What two runs of PROCESS on the same operands agree on (R20, R146). -/
def SameResult (t t' : State) : Prop :=
  t'.status = t.status ∧ t'.obuf = t.obuf ∧ t'.segv = t.segv ∧ t'.reply = t.reply ∧
    (t.status ≠ 0x01 → t'.seg = t.seg) ∧ (t.status = 0x00 → t'.acc = t.acc ∧ t'.ckout = t.ckout)

section
variable (s s' : State)

theorem sameResult_setObuf {t t' : State} (b : Bytes) (status : t'.status = t.status) (segv : t'.segv = t.segv)
    (reply : t'.reply = t.reply) (seg : t.status ≠ 0x01 → t'.seg = t.seg)
    (sums : t.status = 0x00 → t'.acc = t.acc ∧ t'.ckout = t.ckout) : SameResult (t.setObuf b) (t'.setObuf b) :=
  ⟨status, rfl, segv, reply, seg, sums⟩

theorem sameResult_unreplied (st : Status) (failed : st ≠ .ok) (seg : st ≠ .truncated → s'.seg = s.seg) :
    SameResult ((unreplied st s).setObuf []) ((unreplied st s').setObuf []) := by
  have bad : ¬ statusCode st = 0x00 := mt (statusCode_eq_zero_iff st).mp failed
  refine sameResult_setObuf [] ?_ ?_ ?_ (fun other => ?seg) (fun ok => absurd ((unreplied_status s st).symm.trans ok) bad)
  case seg =>
    rw [unreplied_status] at other
    rw [unreplied_seg, unreplied_seg]
    exact seg fun truncated => other (congrArg statusCode truncated)
  all_goals simp

theorem sameResult_replied (out : Segment) :
    SameResult ((replied out s).setObuf (encodeSeg out)) ((replied out s').setObuf (encodeSeg out)) := by
  refine sameResult_setObuf _ ?_ ?_ ?_ (fun _ => ?_) (fun _ => ⟨?_, ?_⟩) <;> simp

end

/-- Settles O47: whether the buffer decodes, to which segment, and what is decided of that, are the same in both states. -/
theorem processDependsOnItsOperandsOnly : Obligations.ProcessDependsOnItsOperandsOnly := by
  intro s s' t ibuf inSrc inDst cfg inputs h
  have same : decodeSeg s'.ibuf s'.inSrc s'.inDst = decodeSeg s.ibuf s.inSrc s.inDst := by rw [ibuf, inSrc, inDst]
  have agree (g : Segment) : verdict s'.cfg s'.inputs g = verdict s.cfg s.inputs g := by rw [cfg, inputs]
  obtain ⟨buffer, rfl⟩ | ⟨g, st, buffer, decided, rfl⟩ | ⟨g, out, buffer, decided, rfl⟩ := exec_process_eq_next h
  · exact ⟨_, exec_process_of_truncated s' (same.trans buffer),
      sameResult_unreplied s s' .truncated nofun fun other => absurd rfl other⟩
  · exact ⟨_, exec_process_of_verdict_refused s' g st (same.trans buffer) ((agree g).trans decided),
      sameResult_unreplied (s.setSeg g) (s'.setSeg g) st (verdict_refused_ne_ok decided) fun _ => rfl⟩
  · exact ⟨_, exec_process_of_verdict_next s' g out (same.trans buffer) ((agree g).trans decided),
      sameResult_replied s s' out⟩

/-- A reply to a well-formed segment is well-formed and valid, between the addresses exchanged (R109, R113). -/
theorem verdict_reply_proper {c : Config} {a : Inputs} {g out : Segment} (h : verdict c a g = .next out)
    (wf : g.WellFormed) : out.Fits c ∧ ckValid out = true ∧ out.src = g.dst ∧ out.dst = g.src := by
  obtain ⟨four, opts, -⟩ := wf
  obtain ⟨-, fits, ⟨r, rfl⟩ | rfl⟩ := verdict_eq_next h
  · exact ⟨⟨mkReply_wellFormed g.opt synAck _ _ _ _ _ four opts (by decide), fits⟩, ckValid_ckGen _, rfl, rfl⟩
  · exact ⟨⟨mkReply_wellFormed [] ackFin _ _ _ _ _ rfl (Nat.zero_le _) (by decide), fits⟩, ckValid_ckGen _, rfl, rfl⟩

/-- Settles O48: what was decoded is well-formed, so the reply is, and comes back from its bytes. -/
theorem processedReplyDecodesAndVerifies : Obligations.ProcessedReplyDecodesAndVerifies := by
  intro s t _ h ok
  obtain ⟨g, out, buffer, reply, rfl⟩ := exec_process_ok h ok
  obtain ⟨-, wf, src, dst⟩ := encodeUndoesDecode _ _ _ g buffer
  obtain ⟨fits, valid, outSrc, outDst⟩ := verdict_reply_proper reply wf
  rw [setObuf_seg, replied_seg, setObuf_obuf, segv_setObuf, reply_setObuf, replied_segv, replied_reply]
  exact ⟨decodeSeg_encodeSeg out fits.1, fits, valid, outSrc.trans dst, outDst.trans src, rfl, rfl⟩

end Sys2Proof.Machine
end

section
/-! The host's actions between commands (R11, R13, R21, R35, R59, R145). -/

namespace Sys2Proof.Machine

set_option deprecated.oldSectionVars true

/-- Settles O2: the four parts of the invariant on the constants of reset. -/
theorem invariantHoldsAtReset : Obligations.InvariantHoldsAtReset := by
  refine ⟨?legal, reset_memory_wf, ?flags, ?status⟩ <;> decide

/-- Settles O50: reset and CLEAR are one operation on the registers. -/
theorem platformResetLeavesWhatClearLeaves : Obligations.PlatformResetLeavesWhatClearLeaves :=
  fun s rest program => ⟨step_host s .reset rest program nofun, step_host s .reset rest program nofun⟩

section
variable (s : State) (b : Bytes)

/-! A load replaces its buffer or changes nothing (R13, R21). -/

theorem loadBuf_ibuf_eq :
    loadBuf .ibuf b s = { s with ibuf := if b.length ≤ s.cfg.maxLen then b else s.ibuf } := by
  change (if b.length ≤ s.cfg.maxLen then s.setIbuf b else s) = _
  split_ifs <;> rfl

theorem loadBuf_segOpt_eq :
    loadBuf .segOpt b s = { s with seg := { s.seg with opt := if b.length ≤ 40 then b else s.seg.opt } } := by
  change (if b.length ≤ 40 then s.setSeg { s.seg with opt := b } else s) = _
  split_ifs <;> rfl

theorem loadBuf_segPay_eq :
    loadBuf .segPay b s =
      { s with seg := { s.seg with pay := if b.length ≤ s.cfg.maxLen - 20 then b else s.seg.pay } } := by
  change (if b.length ≤ s.cfg.maxLen - 20 then s.setSeg { s.seg with pay := b } else s) = _
  split_ifs <;> rfl

end

/-- Settles O52: each load on the state the host's action is taken from. -/
theorem hostLoads : Obligations.HostLoads := by
  refine fun s b rest => ⟨fun program => ?ibuf, fun program => ?opt, fun program => ?pay, fun program => ?copy⟩
  case ibuf => exact (step_host s _ rest program nofun).trans (congrArg _ (loadBuf_ibuf_eq _ b))
  case opt => exact (step_host s _ rest program nofun).trans (congrArg _ (loadBuf_segOpt_eq _ b))
  case pay => exact (step_host s _ rest program nofun).trans (congrArg _ (loadBuf_segPay_eq _ b))
  case copy => exact (step_host s _ rest program nofun).trans (congrArg _ (loadBuf_ibuf_eq _ s.obuf))

/-- A host write of `ACC` keeps all its 32 bits (R15). -/
theorem setAcc_toNat (s : State) (w : Word) : s.setAcc w.toNat = { s with acc := w } := by
  rw [State.setAcc, BitVec.ofNat_toNat, BitVec.setWidth_eq]

/-- Settles O53: each write is the update of its field. -/
theorem hostWritesOfScalars : Obligations.HostWritesOfScalars := by
  intro s rest v w
  have half (r : HalfReg) (h : s.program = .set16 r v :: rest) := step_host s _ rest h nofun
  have word (r : WordReg) (h : s.program = .set32 r w :: rest) := step_host s _ rest h nofun
  exact ⟨half .segSport, half .segDport, half .segCtrl, half .segWin, half .segCsum, half .segUrgp, word .inSrc,
    word .inDst, fun h => (word .acc h).trans (congrArg _ (setAcc_toNat _ w)), word .segSeq, word .segAckn,
    word .segSrc, word .segDst⟩

/-! ### Reads -/

section
variable {s : State} {r : Reg}

theorem reads_byte {v : Byte} (h : s.view r = some (.num (v.setWidth 32))) : s.Reads r v.toNat :=
  ⟨_, h, BitVec.toNat_setWidth_of_le (by decide)⟩

theorem reads_half {v : Half} (h : s.view r = some (.num (v.setWidth 32))) : s.Reads r v.toNat :=
  ⟨_, h, BitVec.toNat_setWidth_of_le (by decide)⟩

theorem reads_word {v : Word} (h : s.view r = some (.num v)) : s.Reads r v.toNat := ⟨v, h, rfl⟩

/-- A length of at most 65535 bytes is read exactly. -/
theorem reads_length {n : Nat} (h : s.view r = some (.num (BitVec.ofNat 32 n))) (bound : n ≤ 65535) : s.Reads r n :=
  ⟨_, h, Nat.mod_eq_of_lt (by omega)⟩

end

/-- `FLAGS` with its reserved bits zero is its three flags (R18). -/
theorem flags_toNat_of_reserved (s : State) (h : FlagsReserved s) :
    s.flags.toNat = s.segv.toNat + 2 * s.ckok.toNat + 4 * s.reply.toNat := by
  have low : s.flags &&& 0x07 = s.flags := by
    have split : s.flags &&& (0xF8 ||| 0x07) = s.flags &&& 0xF8 ||| s.flags &&& 0x07 := BitVec.and_or_distrib_left
    rw [h] at split
    exact (split.trans BitVec.zero_or).symm.trans BitVec.and_allOnes
  have small : s.flags.toNat < 8 := by
    rw [← low, BitVec.toNat_and]
    exact Nat.lt_succ_of_le Nat.and_le_right
  rw [segv_eq_getLsbD, ckok_eq_getLsbD, reply_eq_getLsbD]
  simp only [BitVec.getLsbD]
  interval_cases s.flags.toNat <;> rfl

/-- Settles O54: a narrow register is widened with zeros, and a capacity is below 2^32. -/
theorem readsHaveNoSideEffect : Obligations.ReadsHaveNoSideEffect := by
  refine ⟨fun s r rest program => step_host s _ rest program nofun, fun s => ?registers, fun s inv => ?lengths, step_idle⟩
  case registers =>
    exact ⟨rfl, reads_byte rfl, reads_byte rfl, rfl, reads_word rfl, reads_word rfl, rfl, reads_word rfl, reads_half rfl,
      reads_half rfl, reads_half rfl, reads_word rfl, reads_word rfl, reads_half rfl, reads_half rfl, reads_half rfl,
      reads_half rfl, reads_word rfl, reads_word rfl, rfl, rfl⟩
  case lengths =>
    obtain ⟨⟨-, hmax⟩, ⟨ibuf, obuf, opt, pay⟩, reserved, -⟩ := inv
    simp only [capacity, optCap, payCap] at ibuf obuf opt pay
    refine ⟨reads_length rfl (by omega), reads_length rfl (by omega), reads_length rfl (by omega),
      reads_length rfl (by omega), ?flags⟩
    rw [← flags_toNat_of_reserved s reserved]
    exact reads_byte rfl

end Sys2Proof.Machine
end

section
/-! What an instruction that answers a next state has left, and why, instruction by instruction (R67 to R71, R87 to R90, R110
to R112). -/

namespace Sys2Proof.Machine

set_option deprecated.oldSectionVars true

theorem exec_decode_of_eq_none (s : State) (h : decodeSeg s.ibuf s.inSrc s.inDst = none) :
    exec .decode s = .next ((s.setSegv false).setStatus .truncated) :=
  congrArg Host.Outcome.next (decodeStage_of_eq_none s h)

section
variable {s t : State}

theorem exec_decode_eq_next (h : exec .decode s = .next t) :
    (decodeSeg s.ibuf s.inSrc s.inDst = none ∧ t = (s.setSegv false).setStatus .truncated) ∨
    ∃ g, decodeSeg s.ibuf s.inSrc s.inDst = some g ∧ t = decoded g s := by
  cases buffer : decodeSeg s.ibuf s.inSrc s.inDst with
  | none =>
    rw [exec_decode_of_eq_none s buffer] at h
    exact .inl ⟨rfl, (Host.Outcome.next.inj h).symm⟩
  | some g =>
    rw [exec_decode_of_eq_some s g buffer] at h
    exact .inr ⟨g, rfl, (Host.Outcome.next.inj h).symm⟩

theorem exec_encode_eq_next (h : exec .encode s = .next t) :
    (s.segv = false ∧ t = s.setStatus .noSegment) ∨
    (s.segv = true ∧ s.cfg.maxLen < wireLen s.seg ∧ t = s.setStatus .lengthOverflow) ∨
    (s.segv = true ∧ wireLen s.seg ≤ s.cfg.maxLen ∧ t = (s.setObuf (encodeSeg s.seg)).setStatus .ok) := by
  have stage : t = encodeStage s := (Host.Outcome.next.inj h).symm
  rw [stage]
  exact encodeStage_cases s

theorem exec_ckgen_eq_next (h : exec .ckgen s = .next t) :
    (s.segv = false ∧ t = s.setStatus .noSegment) ∨
    (s.segv = true ∧ 65535 < wireLen s.seg ∧ t = s.setStatus .lengthOverflow) ∨
    (s.segv = true ∧ wireLen s.seg ≤ 65535 ∧
      t = (((s.setAcc (segSum0 s.seg)).setCkout (compile (segSum0 s.seg))).setSeg
        (withCsum s.seg (compile (segSum0 s.seg)))).setStatus .ok) := by
  cases segv : s.segv with
  | false =>
    rw [exec_ckgen_of_not_segv s segv] at h
    exact .inl ⟨rfl, (Host.Outcome.next.inj h).symm⟩
  | true =>
    obtain fits | long := le_or_gt (wireLen s.seg) 65535
    · rw [exec_ckgen_of_fits s segv fits] at h
      exact .inr (.inr ⟨rfl, fits, (Host.Outcome.next.inj h).symm⟩)
    · rw [exec_ckgen_of_too_long s segv long] at h
      exact .inr (.inl ⟨rfl, long, (Host.Outcome.next.inj h).symm⟩)

theorem exec_ckverify_eq_next (h : exec .ckverify s = .next t) :
    (s.segv = false ∧ t = (s.setCkok false).setStatus .noSegment) ∨
    (s.segv = true ∧ 65535 < wireLen s.seg ∧ t = (s.setCkok false).setStatus .lengthOverflow) ∨
    (s.segv = true ∧ wireLen s.seg ≤ 65535 ∧ compile (segSum s.seg) = 0 ∧
      t = (((s.setAcc (segSum s.seg)).setCkout (compile (segSum s.seg))).setCkok true).setStatus .ok) ∨
    (s.segv = true ∧ wireLen s.seg ≤ 65535 ∧ compile (segSum s.seg) ≠ 0 ∧
      t = (((s.setAcc (segSum s.seg)).setCkout (compile (segSum s.seg))).setCkok false).setStatus .badChecksum) := by
  cases segv : s.segv with
  | false =>
    rw [exec_ckverify_of_not_segv s segv] at h
    exact .inl ⟨rfl, (Host.Outcome.next.inj h).symm⟩
  | true =>
    obtain fits | long := le_or_gt (wireLen s.seg) 65535
    · by_cases valid : compile (segSum s.seg) = 0
      · rw [exec_ckverify_of_compile_eq_zero s segv fits valid] at h
        exact .inr (.inr (.inl ⟨rfl, fits, valid, (Host.Outcome.next.inj h).symm⟩))
      · rw [exec_ckverify_of_compile_ne_zero s segv fits valid] at h
        exact .inr (.inr (.inr ⟨rfl, fits, valid, (Host.Outcome.next.inj h).symm⟩))
    · rw [exec_ckverify_of_too_long s segv long] at h
      exact .inr (.inl ⟨rfl, long, (Host.Outcome.next.inj h).symm⟩)

/-- A decision that answers a next state is a refusal or a reply (R110). -/
theorem answer_eq_next {v : Verdict} (h : v.answer s = .next t) :
    (∃ st, v = .refused st ∧ t = unreplied st s) ∨ ∃ out, v = .next out ∧ t = replied out s := by
  cases v with
  | refused st => exact .inl ⟨st, rfl, (Host.Outcome.next.inj h).symm⟩
  | next out => exact .inr ⟨out, rfl, (Host.Outcome.next.inj h).symm⟩
  | fault f => cases h

theorem exec_respond_eq_next (h : exec .respond s = .next t) :
    (s.segv = false ∧ t = (s.setReply false).setStatus .noSegment) ∨
    (s.segv = true ∧ ∃ st, verdict s.cfg s.inputs s.seg = .refused st ∧ t = unreplied st s) ∨
    (s.segv = true ∧ ∃ out, verdict s.cfg s.inputs s.seg = .next out ∧ t = replied out s) := by
  cases segv : s.segv with
  | false =>
    rw [exec_respond_of_not_segv s segv] at h
    exact .inl ⟨rfl, (Host.Outcome.next.inj h).symm⟩
  | true =>
    rw [exec_respond_eq_answer s segv] at h
    exact .inr ((answer_eq_next h).imp (⟨rfl, ·⟩) (⟨rfl, ·⟩))

theorem exec_rclassUnserved_eq_next {p k : Half} (h : exec (.rclassUnserved p k) s = .next t) :
    (s.segv = false ∧ t = (s.setReply false).setStatus .noSegment) ∨
    (s.segv = true ∧ t = unreplied .policyReject s) := by
  cases segv : s.segv with
  | false =>
    rw [exec_rclassUnserved_of_not_segv s segv] at h
    exact .inl ⟨rfl, (Host.Outcome.next.inj h).symm⟩
  | true =>
    rw [exec_rclassUnserved_of_segv s segv] at h
    exact .inr ⟨rfl, (Host.Outcome.next.inj h).symm⟩

theorem exec_rclassOther_eq_next {k : Half} (h : exec (.rclassOther k) s = .next t) :
    (s.segv = false ∧ t = (s.setReply false).setStatus .noSegment) ∨
    (s.segv = true ∧ t = unreplied .unhandled s) := by
  cases segv : s.segv with
  | false =>
    rw [exec_rclassOther_of_not_segv s segv] at h
    exact .inl ⟨rfl, (Host.Outcome.next.inj h).symm⟩
  | true =>
    rw [exec_rclassOther_of_segv s segv] at h
    exact .inr ⟨rfl, (Host.Outcome.next.inj h).symm⟩

/-- The rows of the classes SYN and PSH refuse a reply only where it is too long (R103, R104). -/
theorem answer_classVerdict_eq_next {c : ReplyClass} (kind : c = .syn ∨ c = .psh)
    (h : (classVerdict c s.cfg s.inputs s.seg).answer s = .next t) :
    t = unreplied .lengthOverflow s ∨
      ∃ out, classVerdict c s.cfg s.inputs s.seg = .next out ∧ t = replied out s := by
  obtain ⟨st, decided, rfl⟩ | reply := answer_eq_next h
  · obtain ⟨rfl, -⟩ | ⟨rfl, -⟩ | ⟨-, rfl⟩ := classVerdict_eq_refused decided
    · exact absurd kind (by decide)
    · exact absurd kind (by decide)
    · exact .inl rfl
  · exact .inr reply

theorem exec_rclassSyn_eq_next {k : Half} (h : exec (.rclassSyn k) s = .next t) :
    (s.segv = false ∧ t = (s.setReply false).setStatus .noSegment) ∨
    t = unreplied .lengthOverflow s ∨
    (∃ out, classVerdict .syn s.cfg s.inputs s.seg = .next out ∧ t = replied out s) := by
  cases segv : s.segv with
  | false =>
    rw [exec_rclassSyn_of_not_segv s segv] at h
    exact .inl ⟨rfl, (Host.Outcome.next.inj h).symm⟩
  | true =>
    rw [exec_rclassSyn_of_segv s segv] at h
    exact .inr (answer_classVerdict_eq_next (.inl rfl) h)

theorem exec_rclassPsh_eq_next {k : Half} (h : exec (.rclassPsh k) s = .next t) :
    (s.segv = false ∧ t = (s.setReply false).setStatus .noSegment) ∨
    t = unreplied .lengthOverflow s ∨
    (∃ out, classVerdict .psh s.cfg s.inputs s.seg = .next out ∧ t = replied out s) := by
  cases segv : s.segv with
  | false =>
    rw [exec_rclassPsh_of_not_segv s segv] at h
    exact .inl ⟨rfl, (Host.Outcome.next.inj h).symm⟩
  | true =>
    rw [exec_rclassPsh_of_segv s segv] at h
    exact .inr (answer_classVerdict_eq_next (.inr rfl) h)

theorem exec_tcpHeader_eq_next {hd : Header} (h : exec (.tcpHeader hd) s = .next t) :
    t = (s.setSegv false).setStatus .truncated ∨
    ∃ g, cutSegment hd s.ibuf s.inSrc s.inDst = some g ∧ t = decoded g s := by
  have taken : t = takeDecoded (if s.ibuf.length < fixedHdr then none else cutSegment hd s.ibuf s.inSrc s.inDst) s :=
    (Host.Outcome.next.inj h).symm
  split_ifs at taken
  · exact .inl taken
  · cases cut : cutSegment hd s.ibuf s.inSrc s.inDst with rw [cut] at taken
    | none => exact .inl taken
    | some g => exact .inr ⟨g, rfl, taken⟩

end

end Sys2Proof.Machine
end

section
/-! What an instruction leaves unchanged: each end writes the register groups R11 lists for its instruction, and keeps the
reserved bits of `FLAGS` (R18). -/

namespace Sys2Proof.Machine

set_option deprecated.oldSectionVars true

/-- From `s` to `t` only the groups `W` are written, the reserved bits of `FLAGS` stay zero, and what is no register stays. -/
def Frame (W : List Group) (s t : State) : Prop :=
  (∀ x ∉ W, x.Same s t) ∧ (FlagsReserved s → FlagsReserved t) ∧ t.cfg = s.cfg ∧ t.inputs = s.inputs ∧
    t.program = s.program ∧ t.got = s.got

theorem Group.same_refl (x : Group) (s : State) : x.Same s s := by
  cases x with
  | addresses => exact ⟨rfl, rfl⟩
  | _ => rfl

theorem Group.Same.trans {x : Group} {s t u : State} (h : x.Same s t) (h' : x.Same t u) : x.Same s u := by
  cases x with
  | addresses => exact ⟨h'.1.trans h.1, h'.2.trans h.2⟩
  | _ => exact Eq.trans h' h

/-- A flag that is not reserved may be written (R18). -/
theorem putFlag_reserved {m f : Byte} (v : Bool) (hm : m &&& 0xF8 = 0) (h : f &&& 0xF8 = 0) : putFlag m v f &&& 0xF8 = 0 := by
  cases v with
  | false =>
    have : f &&& ~~~m &&& 0xF8 = (f &&& 0xF8) &&& ~~~m := by ac_rfl
    rw [putFlag, if_neg Bool.false_ne_true, this, h]
    exact BitVec.zero_and
  | true =>
    rw [putFlag, if_pos rfl, BitVec.and_or_distrib_right, h, hm]
    exact BitVec.or_zero

section
variable {W : List Group} {s t u : State}

theorem Frame.refl : Frame W s s := ⟨fun x _ => x.same_refl s, id, rfl, rfl, rfl, rfl⟩

theorem Frame.trans (h : Frame W s t) (h' : Frame W t u) : Frame W s u := by
  obtain ⟨same, reserved, cfg, inputs, program, got⟩ := h
  obtain ⟨same', reserved', cfg', inputs', program', got'⟩ := h'
  exact ⟨fun x hx => (same x hx).trans (same' x hx), reserved' ∘ reserved, cfg'.trans cfg, inputs'.trans inputs,
    program'.trans program, got'.trans got⟩

theorem Frame.same (h : Frame W s t) (x : Group) (hx : x ∉ W) : x.Same s t := h.1 x hx

/-! ### The updates -/

theorem frame_setStatus (st : Status) : Frame W s (s.setStatus st) :=
  ⟨fun x _ => x.same_refl s, id, rfl, rfl, rfl, rfl⟩

theorem frame_setObuf (b : Bytes) (h : .obuf ∈ W) : Frame W s (s.setObuf b) := by
  refine ⟨fun x hx => ?_, id, rfl, rfl, rfl, rfl⟩
  cases x with
  | obuf => exact absurd h hx
  | addresses => exact ⟨rfl, rfl⟩
  | _ => rfl

theorem frame_setAcc (v : Nat) (h : .acc ∈ W) : Frame W s (s.setAcc v) := by
  refine ⟨fun x hx => ?_, id, rfl, rfl, rfl, rfl⟩
  cases x with
  | acc => exact absurd h hx
  | addresses => exact ⟨rfl, rfl⟩
  | _ => rfl

theorem frame_setCkout (v : Half) (h : .ckout ∈ W) : Frame W s (s.setCkout v) := by
  refine ⟨fun x hx => ?_, id, rfl, rfl, rfl, rfl⟩
  cases x with
  | ckout => exact absurd h hx
  | addresses => exact ⟨rfl, rfl⟩
  | _ => rfl

theorem frame_setSeg (g : Segment) (hc : .csum ∈ W) (hs : .segment ∈ W) : Frame W s (s.setSeg g) := by
  refine ⟨fun x hx => ?_, id, rfl, rfl, rfl, rfl⟩
  cases x with
  | csum => exact absurd hc hx
  | segment => exact absurd hs hx
  | addresses => exact ⟨rfl, rfl⟩
  | _ => rfl

/-- Another checksum leaves the rest of the segment. -/
theorem frame_setSeg_withCsum {g : Segment} (held : s.seg = g) (v : Half) (h : .csum ∈ W) :
    Frame W s (s.setSeg (withCsum g v)) := by
  subst held
  refine ⟨fun x hx => ?_, id, rfl, rfl, rfl, rfl⟩
  cases x with
  | csum => exact absurd h hx
  | addresses => exact ⟨rfl, rfl⟩
  | _ => rfl

theorem frame_setSegv (v : Bool) (h : .segv ∈ W) : Frame W s (s.setSegv v) := by
  refine ⟨fun x hx => ?_, putFlag_reserved v rfl, rfl, rfl, rfl, rfl⟩
  cases x with
  | segv => exact absurd h hx
  | ckok => exact ckok_setSegv s v
  | reply => exact reply_setSegv s v
  | addresses => exact ⟨rfl, rfl⟩
  | _ => rfl

theorem frame_setCkok (v : Bool) (h : .ckok ∈ W) : Frame W s (s.setCkok v) := by
  refine ⟨fun x hx => ?_, putFlag_reserved v rfl, rfl, rfl, rfl, rfl⟩
  cases x with
  | segv => exact segv_setCkok s v
  | ckok => exact absurd h hx
  | reply => exact reply_setCkok s v
  | addresses => exact ⟨rfl, rfl⟩
  | _ => rfl

theorem frame_setReply (v : Bool) (h : .reply ∈ W) : Frame W s (s.setReply v) := by
  refine ⟨fun x hx => ?_, putFlag_reserved v rfl, rfl, rfl, rfl, rfl⟩
  cases x with
  | segv => exact segv_setReply s v
  | ckok => exact ckok_setReply s v
  | reply => exact absurd h hx
  | addresses => exact ⟨rfl, rfl⟩
  | _ => rfl

/-! ### The ends that several instructions share -/

theorem frame_truncated (h : .segv ∈ W) : Frame W s ((s.setSegv false).setStatus .truncated) :=
  (frame_setSegv false h).trans (frame_setStatus _)

theorem frame_decoded (g : Segment) (h : [.csum, .segment, .segv] ⊆ W) : Frame W s (decoded g s) :=
  ((frame_setSeg g (h (by decide)) (h (by decide))).trans (frame_setSegv true (h (by decide)))).trans (frame_setStatus _)

theorem frame_summed (v : Nat) (h : [.acc, .ckout] ⊆ W) : Frame W s ((s.setAcc v).setCkout (compile v)) :=
  (frame_setAcc v (h (by decide))).trans (frame_setCkout _ (h (by decide)))

theorem frame_noReply (st : Status) (h : .reply ∈ W) : Frame W s ((s.setReply false).setStatus st) :=
  (frame_setReply false h).trans (frame_setStatus st)

theorem frame_unreplied (st : Status) (h : [.segv, .reply] ⊆ W) : Frame W s (unreplied st s) :=
  (frame_setSegv false (h (by decide))).trans (frame_noReply st (h (by decide)))

theorem frame_replied (out : Segment) (h : [.acc, .ckout, .csum, .segment, .segv, .reply] ⊆ W) :
    Frame W s (replied out s) :=
  ((((frame_summed _ (fun _ hx => h (List.subset_append_left _ _ hx))).trans
    (frame_setSeg out (h (by decide)) (h (by decide)))).trans (frame_setSegv true (h (by decide)))).trans
    (frame_setReply true (h (by decide)))).trans (frame_setStatus .ok)

end

/-- CLEAR writes every group (R112). -/
theorem frame_clear (s : State) : Frame (writes .clear) s (s.clearRegs.setStatus .ok) := by
  have all (x : Group) : (writes .clear).elem x = true := by cases x <;> rfl
  exact ⟨fun x hx => absurd (List.mem_of_elem_eq_true (all x)) hx, fun _ => BitVec.zero_and, rfl, rfl, rfl, rfl⟩

section
variable {s t : State}

theorem frame_of_exec_decode (h : exec .decode s = .next t) : Frame (writes .decode) s t := by
  obtain ⟨-, rfl⟩ | ⟨g, -, rfl⟩ := exec_decode_eq_next h
  · exact frame_truncated (by decide)
  · exact frame_decoded g (List.Subset.refl _)

theorem frame_of_exec_tcpHeader {hd : Header} (h : exec (.tcpHeader hd) s = .next t) : Frame (writes .decode) s t := by
  obtain rfl | ⟨g, -, rfl⟩ := exec_tcpHeader_eq_next h
  · exact frame_truncated (by decide)
  · exact frame_decoded g (List.Subset.refl _)

theorem frame_of_exec_encode (h : exec .encode s = .next t) : Frame (writes .encode) s t := by
  obtain ⟨-, rfl⟩ | ⟨-, -, rfl⟩ | ⟨-, -, rfl⟩ := exec_encode_eq_next h
  · exact frame_setStatus _
  · exact frame_setStatus _
  · exact (frame_setObuf _ (by decide)).trans (frame_setStatus .ok)

theorem frame_of_exec_ckgen (h : exec .ckgen s = .next t) : Frame (writes .ckgen) s t := by
  obtain ⟨-, rfl⟩ | ⟨-, -, rfl⟩ | ⟨-, -, rfl⟩ := exec_ckgen_eq_next h
  · exact frame_setStatus _
  · exact frame_setStatus _
  · have held : ((s.setAcc (segSum0 s.seg)).setCkout (compile (segSum0 s.seg))).seg = s.seg := by
      rw [setCkout_seg, setAcc_seg]
    exact ((frame_summed _ (by decide)).trans (frame_setSeg_withCsum held _ (by decide))).trans (frame_setStatus .ok)

theorem frame_of_exec_ckverify (h : exec .ckverify s = .next t) : Frame (writes .ckverify) s t := by
  have written : .ckok ∈ writes .ckverify := by decide
  have summed : Frame (writes .ckverify) s ((s.setAcc (segSum s.seg)).setCkout (compile (segSum s.seg))) :=
    frame_summed _ (by decide)
  obtain ⟨-, rfl⟩ | ⟨-, -, rfl⟩ | ⟨-, -, -, rfl⟩ | ⟨-, -, -, rfl⟩ := exec_ckverify_eq_next h
  · exact (frame_setCkok false written).trans (frame_setStatus _)
  · exact (frame_setCkok false written).trans (frame_setStatus _)
  · exact (summed.trans (frame_setCkok true written)).trans (frame_setStatus .ok)
  · exact (summed.trans (frame_setCkok false written)).trans (frame_setStatus _)

theorem frame_of_exec_respond (h : exec .respond s = .next t) : Frame (writes .respond) s t := by
  obtain ⟨-, rfl⟩ | ⟨-, st, -, rfl⟩ | ⟨-, out, -, rfl⟩ := exec_respond_eq_next h
  · exact frame_noReply _ (by decide)
  · exact frame_unreplied st (by decide)
  · exact frame_replied out (List.Subset.refl _)

theorem frame_of_exec_process (h : exec .process s = .next t) : Frame (writes .process) s t := by
  have obuf : .obuf ∈ writes .process := List.mem_cons_self
  obtain ⟨-, rfl⟩ | ⟨g, st, -, -, rfl⟩ | ⟨-, out, -, -, rfl⟩ := exec_process_eq_next h
  · exact (frame_unreplied _ (by decide)).trans (frame_setObuf _ obuf)
  · exact ((frame_setSeg g (by decide) (by decide)).trans (frame_unreplied st (by decide))).trans (frame_setObuf _ obuf)
  · exact (frame_replied out (List.subset_cons_self _ _)).trans (frame_setObuf _ obuf)

theorem frame_of_exec_rclassSyn {k : Half} (h : exec (.rclassSyn k) s = .next t) : Frame (writes .respond) s t := by
  obtain ⟨-, rfl⟩ | rfl | ⟨out, -, rfl⟩ := exec_rclassSyn_eq_next h
  · exact frame_noReply _ (by decide)
  · exact frame_unreplied _ (by decide)
  · exact frame_replied out (List.Subset.refl _)

theorem frame_of_exec_rclassPsh {k : Half} (h : exec (.rclassPsh k) s = .next t) : Frame (writes .respond) s t := by
  obtain ⟨-, rfl⟩ | rfl | ⟨out, -, rfl⟩ := exec_rclassPsh_eq_next h
  · exact frame_noReply _ (by decide)
  · exact frame_unreplied _ (by decide)
  · exact frame_replied out (List.Subset.refl _)

/-- The rows of the classes UNSERVED and OTHER (R102, R105). -/
theorem frame_of_no_reply {st : Status}
    (h : s.segv = false ∧ t = (s.setReply false).setStatus .noSegment ∨ s.segv = true ∧ t = unreplied st s) :
    Frame [.segv, .reply] s t := by
  obtain ⟨-, rfl⟩ | ⟨-, rfl⟩ := h
  · exact frame_noReply _ (by decide)
  · exact frame_unreplied st (List.Subset.refl _)

/-- An instruction writes its groups of R11. -/
theorem frame_of_exec (i : Instr) (h : exec i s = .next t) : Frame (writes i) s t := by
  cases i with
  | decode => exact frame_of_exec_decode h
  | encode => exact frame_of_exec_encode h
  | sum => cases h; exact (frame_setAcc _ (by decide)).trans (frame_setStatus .ok)
  | compile => cases h; exact (frame_setCkout _ (by decide)).trans (frame_setStatus .ok)
  | ckgen => exact frame_of_exec_ckgen h
  | ckverify => exact frame_of_exec_ckverify h
  | respond => exact frame_of_exec_respond h
  | process => exact frame_of_exec_process h
  | mkseg => cases h; exact (frame_setSegv true (by decide)).trans (frame_setStatus .ok)
  | clear => cases h; exact frame_clear s
  | illegal c => cases h; exact frame_setStatus _
  | rclassUnserved p k => exact frame_of_no_reply (exec_rclassUnserved_eq_next h)
  | rclassSyn k => exact frame_of_exec_rclassSyn h
  | rclassPsh k => exact frame_of_exec_rclassPsh h
  | rclassOther k => exact frame_of_no_reply (exec_rclassOther_eq_next h)
  | tcpHeader hd => exact frame_of_exec_tcpHeader h
  | pseudoHeader src dst len =>
    cases h
    exact (frame_setAcc (W := writes .sum) _ (by decide)).trans (frame_setStatus .ok)

end

/-- Settles O55: by the frame of the instruction. -/
theorem instructionsWriteOnlyTheirRegisters : Obligations.InstructionsWriteOnlyTheirRegisters := by
  intro i s t h
  obtain ⟨same, -, cfg, inputs, program, got⟩ := frame_of_exec i h
  exact ⟨same, cfg, inputs, program, got⟩

/-! ### Outcomes -/

/-- The outcomes of R126 without a reply. -/
theorem statusCode_of_refused {c : Config} {a : Inputs} {g : Segment} {st : Status} (h : verdict c a g = .refused st) :
    statusCode st ∈ ([2, 3, 6] : List Byte) := by
  obtain ⟨-, rfl⟩ | ⟨-, rfl⟩ | ⟨-, rfl⟩ := classVerdict_eq_refused h <;> exact List.mem_of_elem_eq_true rfl

section
variable {s t : State}

theorem status_mem_of_exec_respond (h : exec .respond s = .next t) : t.status ∈ outcomes .respond := by
  obtain ⟨-, rfl⟩ | ⟨-, st, decided, rfl⟩ | ⟨-, out, -, rfl⟩ := exec_respond_eq_next h
  · exact List.mem_of_elem_eq_true rfl
  · exact (by decide : ([2, 3, 6] : List Byte) ⊆ outcomes .respond) (statusCode_of_refused decided)
  · exact List.mem_of_elem_eq_true rfl

theorem status_mem_of_exec_process (h : exec .process s = .next t) : t.status ∈ outcomes .process := by
  obtain ⟨-, rfl⟩ | ⟨g, st, -, decided, rfl⟩ | ⟨-, out, -, -, rfl⟩ := exec_process_eq_next h
  · exact List.mem_of_elem_eq_true rfl
  · exact (by decide : ([2, 3, 6] : List Byte) ⊆ outcomes .process) (statusCode_of_refused decided)
  · exact List.mem_of_elem_eq_true rfl

/-- Each status written is evaluated against the list. -/
theorem status_mem_outcomes (i : Instr) (h : exec i s = .next t) : t.status ∈ outcomes i := by
  cases i with
  | decode => obtain ⟨-, rfl⟩ | ⟨g, -, rfl⟩ := exec_decode_eq_next h <;> exact List.mem_of_elem_eq_true rfl
  | encode =>
    obtain ⟨-, rfl⟩ | ⟨-, -, rfl⟩ | ⟨-, -, rfl⟩ := exec_encode_eq_next h <;> exact List.mem_of_elem_eq_true rfl
  | ckgen =>
    obtain ⟨-, rfl⟩ | ⟨-, -, rfl⟩ | ⟨-, -, rfl⟩ := exec_ckgen_eq_next h <;> exact List.mem_of_elem_eq_true rfl
  | ckverify =>
    obtain ⟨-, rfl⟩ | ⟨-, -, rfl⟩ | ⟨-, -, -, rfl⟩ | ⟨-, -, -, rfl⟩ := exec_ckverify_eq_next h <;>
      exact List.mem_of_elem_eq_true rfl
  | respond => exact status_mem_of_exec_respond h
  | process => exact status_mem_of_exec_process h
  | rclassUnserved p k =>
    obtain ⟨-, rfl⟩ | ⟨-, rfl⟩ := exec_rclassUnserved_eq_next h <;> exact List.mem_of_elem_eq_true rfl
  | rclassSyn k =>
    obtain ⟨-, rfl⟩ | rfl | ⟨out, -, rfl⟩ := exec_rclassSyn_eq_next h <;> exact List.mem_of_elem_eq_true rfl
  | rclassPsh k =>
    obtain ⟨-, rfl⟩ | rfl | ⟨out, -, rfl⟩ := exec_rclassPsh_eq_next h <;> exact List.mem_of_elem_eq_true rfl
  | rclassOther k =>
    obtain ⟨-, rfl⟩ | ⟨-, rfl⟩ := exec_rclassOther_eq_next h <;> exact List.mem_of_elem_eq_true rfl
  | tcpHeader hd => obtain rfl | ⟨g, -, rfl⟩ := exec_tcpHeader_eq_next h <;> exact List.mem_of_elem_eq_true rfl
  | _ => cases h; exact List.mem_of_elem_eq_true rfl

/-- Settles O56: by the outcome of each instruction. -/
theorem outcomesAreThoseOfTheTable : Obligations.OutcomesAreThoseOfTheTable :=
  fun i _ _ h => status_mem_outcomes i h

/-- An ENCODE that does not end `OK` leaves `OBUF` (R68). -/
theorem exec_encode_obuf_of_failed (h : exec .encode s = .next t) (failed : t.status ≠ 0x00) : t.obuf = s.obuf := by
  obtain ⟨-, rfl⟩ | ⟨-, -, rfl⟩ | ⟨-, -, rfl⟩ := exec_encode_eq_next h
  · rfl
  · rfl
  · exact absurd rfl failed

/-- A PROCESS that does not end `OK` leaves `OBUF` empty (R111). -/
theorem exec_process_obuf_of_failed (h : exec .process s = .next t) (failed : t.status ≠ 0x00) : t.obuf = [] := by
  obtain ⟨-, rfl⟩ | ⟨g, st, -, -, rfl⟩ | ⟨-, out, -, -, rfl⟩ := exec_process_eq_next h
  · rfl
  · rfl
  · exact absurd rfl failed

end

/-- Settles O57: ENCODE and PROCESS alone write `OBUF` where they may fail, and CLEAR does not fail. -/
theorem noPartialSegmentIsForwarded : Obligations.NoPartialSegmentIsForwarded := by
  intro i s t h failed
  refine ⟨?_, fun process => exec_process_obuf_of_failed (process ▸ h) failed⟩
  by_cases obuf : .obuf ∈ writes i
  case neg => exact .inl ((frame_of_exec i h).same .obuf obuf)
  case pos =>
    cases i with
    | encode => exact .inl (exec_encode_obuf_of_failed h failed)
    | process => exact .inr (exec_process_obuf_of_failed h failed)
    | clear => cases h; exact absurd rfl failed
    | _ => exact absurd (List.elem_eq_true_of_mem obuf) Bool.false_ne_true

end Sys2Proof.Machine
end

section
/-! The invariant of a run (R7, R18, R21, R126): every end of an instruction and every host action keeps it. -/

namespace Sys2Proof.Machine

set_option deprecated.oldSectionVars true

/-- The options of a reply are those of the segment it answers, or none (R103, R104). -/
theorem opt_length_le_of_classVerdict {k : ReplyClass} {c : Config} {a : Inputs} {g out : Segment}
    (h : classVerdict k c a g = .next out) : out.opt.length ≤ g.opt.length := by
  obtain ⟨-, ⟨-, r, rfl⟩ | ⟨-, rfl⟩⟩ := classVerdict_eq_next h
  · exact le_rfl
  · exact Nat.zero_le _

section
variable {s : State} (hw : Memory.wf s)
include hw

/-! A register that is no buffer is written freely. -/

theorem setStatus_wf (st : Status) : Memory.wf (s.setStatus st) := hw
theorem setAcc_wf (v : Nat) : Memory.wf (s.setAcc v) := hw
theorem setCkout_wf (v : Half) : Memory.wf (s.setCkout v) := hw
theorem setSegv_wf (v : Bool) : Memory.wf (s.setSegv v) := hw
theorem setCkok_wf (v : Bool) : Memory.wf (s.setCkok v) := hw
theorem setReply_wf (v : Bool) : Memory.wf (s.setReply v) := hw

theorem setSeg_withCsum_wf {g : Segment} (held : s.seg = g) (v : Half) : Memory.wf (s.setSeg (withCsum g v)) := by
  subst held
  exact hw

/-- What the buffer decodes to is no longer than the buffer (R67). -/
theorem setSeg_wf_of_decodeSeg {g : Segment} (h : decodeSeg s.ibuf s.inSrc s.inDst = some g) :
    Memory.wf (s.setSeg g) := by
  obtain ⟨bytes, ⟨-, opts, -⟩, -⟩ := encodeUndoesDecode _ _ _ g h
  obtain ⟨len, -⟩ := id hw
  have fits : 20 + g.opt.length + g.pay.length ≤ s.cfg.maxLen := by
    rw [← bytes] at len
    exact (encodeSeg_length g).symm.trans_le len
  exact setSeg_wf s g hw opts (by omega)

theorem replied_wf_of_classVerdict {k : ReplyClass} {a : Inputs} {g out : Segment} (hg : g.opt.length ≤ 40)
    (h : classVerdict k s.cfg a g = .next out) : Memory.wf (replied out s) :=
  replied_wf s out hw ((opt_length_le_of_classVerdict h).trans hg) (classVerdict_eq_next h).1

theorem noReply_wf (st : Status) : Memory.wf ((s.setReply false).setStatus st) := setStatus_wf (setReply_wf hw _) st

variable {t : State}

theorem memory_wf_of_exec_ckgen (h : exec .ckgen s = .next t) : Memory.wf t := by
  obtain ⟨-, rfl⟩ | ⟨-, -, rfl⟩ | ⟨-, -, rfl⟩ := exec_ckgen_eq_next h
  · exact setStatus_wf hw _
  · exact setStatus_wf hw _
  · have held : ((s.setAcc (segSum0 s.seg)).setCkout (compile (segSum0 s.seg))).seg = s.seg := by
      rw [setCkout_seg, setAcc_seg]
    exact setStatus_wf (setSeg_withCsum_wf (setCkout_wf (setAcc_wf hw _) _) held _) _

theorem memory_wf_of_exec_ckverify (h : exec .ckverify s = .next t) : Memory.wf t := by
  have summed (v : Nat) (c : Half) := setCkout_wf (setAcc_wf hw v) c
  obtain ⟨-, rfl⟩ | ⟨-, -, rfl⟩ | ⟨-, -, -, rfl⟩ | ⟨-, -, -, rfl⟩ := exec_ckverify_eq_next h
  · exact setStatus_wf (setCkok_wf hw _) _
  · exact setStatus_wf (setCkok_wf hw _) _
  · exact setStatus_wf (setCkok_wf (summed _ _) _) _
  · exact setStatus_wf (setCkok_wf (summed _ _) _) _

theorem memory_wf_of_exec_respond (h : exec .respond s = .next t) : Memory.wf t := by
  obtain ⟨-, -, opts, -⟩ := id hw
  obtain ⟨-, rfl⟩ | ⟨-, st, -, rfl⟩ | ⟨-, out, decided, rfl⟩ := exec_respond_eq_next h
  · exact noReply_wf hw _
  · exact unreplied_wf s st hw
  · exact replied_wf_of_classVerdict hw opts decided

theorem memory_wf_of_exec_process (h : exec .process s = .next t) : Memory.wf t := by
  obtain ⟨-, rfl⟩ | ⟨g, st, buffer, -, rfl⟩ | ⟨g, out, buffer, decided, rfl⟩ := exec_process_eq_next h
  · exact setObuf_wf _ [] (unreplied_wf s _ hw) (Nat.zero_le _)
  · exact setObuf_wf _ [] (unreplied_wf _ st (setSeg_wf_of_decodeSeg hw buffer)) (Nat.zero_le _)
  · obtain ⟨-, ⟨-, opts, -⟩, -⟩ := encodeUndoesDecode _ _ _ g buffer
    obtain ⟨fits, -⟩ := classVerdict_eq_next decided
    exact setObuf_wf _ _ (replied_wf_of_classVerdict hw opts decided)
      ((encodeSeg_length out).trans_le (fits.trans_eq (congrArg Config.maxLen (replied_cfg s out).symm)))

theorem memory_wf_of_exec_tcpHeader {hd : Header} (h : exec (.tcpHeader hd) s = .next t) : Memory.wf t := by
  obtain ⟨len, -⟩ := id hw
  have len : s.ibuf.length ≤ s.cfg.maxLen := len
  obtain rfl | ⟨g, cut, rfl⟩ := exec_tcpHeader_eq_next h
  · exact setStatus_wf (setSegv_wf hw _) _
  · obtain ⟨opt, total⟩ := cutSegment_fits hd _ _ _ g cut
    exact setStatus_wf (setSegv_wf (setSeg_wf s g hw opt (by omega)) _) _

theorem memory_wf_of_exec_rclassSyn {k : Half} (h : exec (.rclassSyn k) s = .next t) : Memory.wf t := by
  obtain ⟨-, -, opts, -⟩ := id hw
  obtain ⟨-, rfl⟩ | rfl | ⟨out, decided, rfl⟩ := exec_rclassSyn_eq_next h
  · exact noReply_wf hw _
  · exact unreplied_wf s _ hw
  · exact replied_wf_of_classVerdict hw opts decided

theorem memory_wf_of_exec_rclassPsh {k : Half} (h : exec (.rclassPsh k) s = .next t) : Memory.wf t := by
  obtain ⟨-, -, opts, -⟩ := id hw
  obtain ⟨-, rfl⟩ | rfl | ⟨out, decided, rfl⟩ := exec_rclassPsh_eq_next h
  · exact noReply_wf hw _
  · exact unreplied_wf s _ hw
  · exact replied_wf_of_classVerdict hw opts decided

theorem memory_wf_of_exec (i : Instr) (h : exec i s = .next t) : Memory.wf t := by
  cases i with
  | decode => cases h; exact decodeStage_wf s hw
  | encode => cases h; exact encodeStage_wf s hw
  | sum => cases h; exact setStatus_wf (setAcc_wf hw _) _
  | compile => cases h; exact setStatus_wf (setCkout_wf hw _) _
  | ckgen => exact memory_wf_of_exec_ckgen hw h
  | ckverify => exact memory_wf_of_exec_ckverify hw h
  | respond => exact memory_wf_of_exec_respond hw h
  | process => exact memory_wf_of_exec_process hw h
  | mkseg => cases h; exact setStatus_wf (setSegv_wf hw _) _
  | clear => cases h; exact setStatus_wf (clearRegs_wf s) _
  | illegal c => cases h; exact setStatus_wf hw _
  | rclassUnserved p k =>
    obtain ⟨-, rfl⟩ | ⟨-, rfl⟩ := exec_rclassUnserved_eq_next h
    · exact noReply_wf hw _
    · exact unreplied_wf s _ hw
  | rclassSyn k => exact memory_wf_of_exec_rclassSyn hw h
  | rclassPsh k => exact memory_wf_of_exec_rclassPsh hw h
  | rclassOther k =>
    obtain ⟨-, rfl⟩ | ⟨-, rfl⟩ := exec_rclassOther_eq_next h
    · exact noReply_wf hw _
    · exact unreplied_wf s _ hw
  | tcpHeader hd => exact memory_wf_of_exec_tcpHeader hw h
  | pseudoHeader src dst len => cases h; exact setStatus_wf (setAcc_wf hw _) _

end

/-- The codes of R126 are at most 7. -/
theorem le_seven_of_mem_outcomes {i : Instr} {b : Byte} (h : b ∈ outcomes i) : b.toNat ≤ 7 := by
  have known : (outcomes i).all (fun b => b.toNat.ble 7) = true := by cases i <;> rfl
  exact Nat.le_of_ble_eq_true (List.all_eq_true.mp known b h)

theorem inv_of_exec {i : Instr} {s t : State} (inv : s.Inv) (h : exec i s = .next t) : t.Inv ∧ t.cfg = s.cfg := by
  obtain ⟨legal, wf, reserved, -⟩ := inv
  obtain ⟨-, keeps, cfg, -⟩ := frame_of_exec i h
  have known : StatusKnown t := le_seven_of_mem_outcomes (status_mem_outcomes i h)
  exact ⟨⟨cfg ▸ legal, memory_wf_of_exec wf i h, keeps reserved, known⟩, cfg⟩

theorem loadBuf_frame (buf : LoadBuf) (b : Bytes) (s : State) :
    (loadBuf buf b s).cfg = s.cfg ∧ (loadBuf buf b s).flags = s.flags ∧ (loadBuf buf b s).status = s.status := by
  cases buf with
  | ibuf => rw [loadBuf_ibuf_eq]; exact ⟨rfl, rfl, rfl⟩
  | segOpt => rw [loadBuf_segOpt_eq]; exact ⟨rfl, rfl, rfl⟩
  | segPay => rw [loadBuf_segPay_eq]; exact ⟨rfl, rfl, rfl⟩

/-- A host action leaves the configuration, and `FLAGS` and `STATUS` unless it is a reset. -/
theorem hostAct_frame (x : HostAction) (s : State) :
    (hostAct x s).cfg = s.cfg ∧
      ((hostAct x s).flags = s.flags ∧ (hostAct x s).status = s.status ∨
        (hostAct x s).flags = 0 ∧ (hostAct x s).status = 0) := by
  cases x with
  | load buf b => exact (loadBuf_frame buf b s).imp_right .inl
  | set16 r v => cases r <;> exact ⟨rfl, .inl ⟨rfl, rfl⟩⟩
  | set32 r v => cases r <;> exact ⟨rfl, .inl ⟨rfl, rfl⟩⟩
  | copy => exact (loadBuf_frame .ibuf s.obuf s).imp_right .inl
  | read r => exact ⟨rfl, .inl ⟨rfl, rfl⟩⟩
  | command c a => exact ⟨rfl, .inl ⟨rfl, rfl⟩⟩
  | reset => exact ⟨rfl, .inr ⟨rfl, rfl⟩⟩

theorem hostAct_inv (x : HostAction) {s : State} (inv : s.Inv) : (hostAct x s).Inv ∧ (hostAct x s).cfg = s.cfg := by
  obtain ⟨legal, wf, reserved, known⟩ := inv
  obtain ⟨cfg, ⟨flags, status⟩ | ⟨flags, status⟩⟩ := hostAct_frame x s
  · exact ⟨⟨cfg ▸ legal, hostAct_wf s x wf, by rwa [FlagsReserved, flags], by rwa [StatusKnown, status]⟩, cfg⟩
  · exact ⟨⟨cfg ▸ legal, hostAct_wf s x wf, by rw [FlagsReserved, flags]; exact BitVec.zero_and,
      by rw [StatusKnown, status]; exact Nat.zero_le 7⟩, cfg⟩

theorem command_or_host (x : HostAction) : (∃ c a, x = .command c a) ∨ ∀ c a, x ≠ .command c a := by
  cases x with
  | command c a => exact .inl ⟨c, a, rfl⟩
  | _ => exact .inr nofun

/-- Settles O3: a step is idle, a command or another host action; taking the action from the list and the answers of its
step are no part of the invariant. -/
theorem everyStepKeepsTheInvariant : Obligations.EveryStepKeepsTheInvariant := by
  intro s t inv h
  cases program : s.program with
  | nil =>
    rw [step_idle s program] at h
    cases h
    exact ⟨inv, rfl⟩
  | cons x rest =>
    obtain ⟨c, a, rfl⟩ | host := command_or_host x
    · rw [step_command s c a rest program] at h
      exact inv_of_exec (s := (s.setProgram rest).setInputs a) inv h
    · rw [step_host s x rest program host] at h
      cases h
      exact hostAct_inv x (s := s.setProgram rest) inv

end Sys2Proof.Machine
end

section
/-! Completion (R132): where an instruction asks a collaborator that does not answer, and nowhere else, it stops (U6). -/

namespace Sys2Proof.Machine

set_option deprecated.oldSectionVars true

/-- The instructions that can ask a collaborator: RESPOND, PROCESS and the rows of the classes SYN and PSH (R103, R104). -/
abbrev Asks (i : Instr) : Prop := i = .respond ∨ i = .process ∨ (∃ k, i = .rclassSyn k) ∨ ∃ k, i = .rclassPsh k

section
variable (s : State)

theorem exists_next_ckgen : ∃ t, exec .ckgen s = .next t := by
  cases segv : s.segv with
  | false => exact ⟨_, exec_ckgen_of_not_segv s segv⟩
  | true =>
    obtain fits | long := le_or_gt (wireLen s.seg) 65535
    · exact ⟨_, exec_ckgen_of_fits s segv fits⟩
    · exact ⟨_, exec_ckgen_of_too_long s segv long⟩

theorem exists_next_ckverify : ∃ t, exec .ckverify s = .next t := by
  cases segv : s.segv with
  | false => exact ⟨_, exec_ckverify_of_not_segv s segv⟩
  | true =>
    obtain fits | long := le_or_gt (wireLen s.seg) 65535
    · by_cases valid : compile (segSum s.seg) = 0
      · exact ⟨_, exec_ckverify_of_compile_eq_zero s segv fits valid⟩
      · exact ⟨_, exec_ckverify_of_compile_ne_zero s segv fits valid⟩
    · exact ⟨_, exec_ckverify_of_too_long s segv long⟩

theorem exists_next_or_asks (i : Instr) : (∃ t, exec i s = .next t) ∨ Asks i := by
  cases i with
  | respond => exact .inr (.inl rfl)
  | process => exact .inr (.inr (.inl rfl))
  | rclassSyn k => exact .inr (.inr (.inr (.inl ⟨k, rfl⟩)))
  | rclassPsh k => exact .inr (.inr (.inr (.inr ⟨k, rfl⟩)))
  | ckgen => exact .inl (exists_next_ckgen s)
  | ckverify => exact .inl (exists_next_ckverify s)
  | rclassUnserved p k =>
    cases segv : s.segv with
    | false => exact .inl ⟨_, exec_rclassUnserved_of_not_segv s segv p k⟩
    | true => exact .inl ⟨_, exec_rclassUnserved_of_segv s segv p k⟩
  | rclassOther k =>
    cases segv : s.segv with
    | false => exact .inl ⟨_, exec_rclassOther_of_not_segv s segv k⟩
    | true => exact .inl ⟨_, exec_rclassOther_of_segv s segv k⟩
  | _ => exact .inl ⟨_, rfl⟩

section
variable (v : Verdict) (g : Segment) (f : Fault) (r : Refusal)

theorem answer_eq_fault_iff : v.answer s = .fault f ↔ v = .fault f := by
  cases v <;> simp [Verdict.answer]

theorem processed_eq_fault_iff : v.processed g s = .fault f ↔ v = .fault f := by
  cases v <;> simp [Verdict.processed]

theorem answer_ne_refused : v.answer s ≠ .refused r := by
  cases v <;> exact nofun

theorem processed_ne_refused : v.processed g s ≠ .refused r := by
  cases v <;> exact nofun

end

section
variable (f : Fault)

theorem exec_respond_eq_fault_iff : exec .respond s = .fault f ↔ s.segv = true ∧ Unanswered s.inputs s.seg f := by
  cases segv : s.segv with
  | false => simp [exec_respond_of_not_segv s segv]
  | true => rw [exec_respond_eq_answer s segv, answer_eq_fault_iff, verdict_eq_fault_iff, and_iff_right rfl]

theorem exec_process_eq_fault_iff :
    exec .process s = .fault f ↔ ∃ g, decodeSeg s.ibuf s.inSrc s.inDst = some g ∧ Unanswered s.inputs g f := by
  cases buffer : decodeSeg s.ibuf s.inSrc s.inDst with
  | none =>
    rw [exec_process_of_truncated s buffer]
    exact iff_of_false nofun fun ⟨_, decodes, _⟩ => nomatch decodes
  | some g =>
    rw [exec_process_eq_processed s g buffer, processed_eq_fault_iff, verdict_eq_fault_iff]
    exact ⟨fun h => ⟨g, rfl, h⟩, fun ⟨_, decodes, h⟩ => Option.some.inj decodes ▸ h⟩

theorem exec_rclassSyn_eq_fault_iff (k : Half) :
    exec (.rclassSyn k) s = .fault f ↔ s.segv = true ∧ s.inputs.rand = none ∧ f = .randomSourceSilent := by
  cases segv : s.segv with
  | false => simp [exec_rclassSyn_of_not_segv s segv k]
  | true => simp [exec_rclassSyn_of_segv s segv, answer_eq_fault_iff, classVerdict_eq_fault_iff]

theorem exec_rclassPsh_eq_fault_iff (k : Half) :
    exec (.rclassPsh k) s = .fault f ↔ s.segv = true ∧ s.inputs.httpUp = false ∧ f = .httpGeneratorSilent := by
  cases segv : s.segv with
  | false => simp [exec_rclassPsh_of_not_segv s segv k]
  | true => simp [exec_rclassPsh_of_segv s segv, answer_eq_fault_iff, classVerdict_eq_fault_iff]

end

theorem exec_ne_refused (i : Instr) (r : Refusal) : exec i s ≠ .refused r := by
  intro refused
  obtain ⟨t, next⟩ | rfl | rfl | ⟨k, rfl⟩ | ⟨k, rfl⟩ := exists_next_or_asks s i
  · cases next.symm.trans refused
  · cases segv : s.segv with
    | false => cases (exec_respond_of_not_segv s segv).symm.trans refused
    | true => exact answer_ne_refused s _ r ((exec_respond_eq_answer s segv).symm.trans refused)
  · cases buffer : decodeSeg s.ibuf s.inSrc s.inDst with
    | none => cases (exec_process_of_truncated s buffer).symm.trans refused
    | some g => exact processed_ne_refused s _ g r ((exec_process_eq_processed s g buffer).symm.trans refused)
  · cases segv : s.segv with
    | false => cases (exec_rclassSyn_of_not_segv s segv k).symm.trans refused
    | true => exact answer_ne_refused s _ r ((exec_rclassSyn_of_segv s segv k).symm.trans refused)
  · cases segv : s.segv with
    | false => cases (exec_rclassPsh_of_not_segv s segv k).symm.trans refused
    | true => exact answer_ne_refused s _ r ((exec_rclassPsh_of_segv s segv k).symm.trans refused)

end

/-- The fault that names a collaborator says that it did not answer (U6). -/
theorem silent_of_unanswered {a : Inputs} {g : Segment} {f : Fault} (h : Unanswered a g f) :
    f = .randomSourceSilent ∧ a.rand = none ∨ f = .httpGeneratorSilent ∧ a.httpUp = false := by
  cases f with
  | randomSourceSilent =>
    obtain ⟨-, -, rand⟩ := h
    exact .inl ⟨rfl, rand⟩
  | httpGeneratorSilent =>
    obtain ⟨-, -, -, http⟩ := h
    exact .inr ⟨rfl, http⟩

theorem silent_of_exec_eq_fault {i : Instr} {s : State} {f : Fault} (h : exec i s = .fault f) :
    (f = .randomSourceSilent ∧ s.inputs.rand = none ∨ f = .httpGeneratorSilent ∧ s.inputs.httpUp = false) ∧ Asks i := by
  obtain ⟨t, next⟩ | asks := exists_next_or_asks s i
  · cases next.symm.trans h
  · refine ⟨?_, asks⟩
    obtain rfl | rfl | ⟨k, rfl⟩ | ⟨k, rfl⟩ := asks
    · exact silent_of_unanswered ((exec_respond_eq_fault_iff s f).mp h).2
    · obtain ⟨g, -, unanswered⟩ := (exec_process_eq_fault_iff s f).mp h
      exact silent_of_unanswered unanswered
    · obtain ⟨-, rand, rfl⟩ := (exec_rclassSyn_eq_fault_iff s f k).mp h
      exact .inl ⟨rfl, rand⟩
    · obtain ⟨-, http, rfl⟩ := (exec_rclassPsh_eq_fault_iff s f k).mp h
      exact .inr ⟨rfl, http⟩

theorem exists_next_of_connected (i : Instr) (s : State) (h : s.Connected) : ∃ t, exec i s = .next t := by
  obtain ⟨rand, http⟩ := h
  cases run : exec i s with
  | next t => exact ⟨t, rfl⟩
  | fault f =>
    obtain ⟨⟨-, silent⟩ | ⟨-, silent⟩, -⟩ := silent_of_exec_eq_fault run
    · simp [silent] at rand
    · simp [silent] at http
  | refused r => exact absurd run (exec_ne_refused s i r)

theorem exists_step_of_connected (s : State)
    (h : ∀ c a, HostAction.command c a ∈ s.program → a.rand.isSome = true ∧ a.httpUp = true) :
    ∃ t, step s = .next t := by
  cases program : s.program with
  | nil => exact ⟨s, step_idle s program⟩
  | cons x rest =>
    obtain ⟨c, a, rfl⟩ | host := command_or_host x
    · rw [step_command s c a rest program]
      exact exists_next_of_connected _ _ (h c a (program ▸ List.mem_cons_self))
    · exact ⟨_, step_host s x rest program host⟩

/-- Settles O58: each of the four that ask stops exactly where its decision is stuck. -/
theorem everyCommandCompletes : Obligations.EveryCommandCompletes := by
  refine ⟨exists_next_of_connected, fun s _ => exists_step_of_connected s, fun _ _ _ => silent_of_exec_eq_fault,
    fun s f => ?respond, exec_process_eq_fault_iff, fun s k f => ?syn, fun s k f => ?psh, fun i s => exec_ne_refused s i⟩
  case respond => rw [← segv_eq_getLsbD]; exact exec_respond_eq_fault_iff s f
  case syn => rw [← segv_eq_getLsbD]; exact exec_rclassSyn_eq_fault_iff s f k
  case psh => rw [← segv_eq_getLsbD]; exact exec_rclassPsh_eq_fault_iff s f k

end Sys2Proof.Machine
end

section
/-! Running a command again (R35). -/

namespace Sys2Proof.Machine

set_option deprecated.oldSectionVars true

section
variable {s : State}

/-! A write of what a register holds already changes nothing. -/

theorem setStatus_eq_self {st : Status} (h : s.status = statusCode st) : s.setStatus st = s := by
  rw [State.setStatus, ← h]

theorem setObuf_eq_self {b : Bytes} (h : s.obuf = b) : s.setObuf b = s := by
  rw [State.setObuf, ← h]

theorem setAcc_eq_self {v : Nat} (h : s.acc = BitVec.ofNat 32 v) : s.setAcc v = s := by
  rw [State.setAcc, ← h]

theorem setCkout_eq_self {v : Half} (h : s.ckout = v) : s.setCkout v = s := by
  rw [State.setCkout, ← h]

theorem setSeg_eq_self {g : Segment} (h : s.seg = g) : s.setSeg g = s := by
  rw [State.setSeg, ← h]

/-- A flag that has its value already. -/
theorem putFlag_eq_self {m f : Byte} {v : Bool} (i : Nat) (mask : m = BitVec.twoPow 8 i) (h : f.getLsbD i = v) :
    putFlag m v f = f := by
  rw [mask]
  refine BitVec.eq_of_getLsbD_eq fun j hj => ?_
  obtain rfl | other := eq_or_ne j i
  · cases v <;> simp_all [putFlag]
  · cases v <;> simp [putFlag, other, hj]

theorem setSegv_eq_self {v : Bool} (h : s.segv = v) : s.setSegv v = s := by
  have flags : putFlag segvMask v s.flags = s.flags := putFlag_eq_self 0 rfl ((segv_eq_getLsbD s).symm.trans h)
  rw [State.setSegv, flags]

theorem setCkok_eq_self {v : Bool} (h : s.ckok = v) : s.setCkok v = s := by
  have flags : putFlag ckokMask v s.flags = s.flags := putFlag_eq_self 1 rfl ((ckok_eq_getLsbD s).symm.trans h)
  rw [State.setCkok, flags]

theorem setReply_eq_self {v : Bool} (h : s.reply = v) : s.setReply v = s := by
  have flags : putFlag replyMask v s.flags = s.flags := putFlag_eq_self 2 rfl ((reply_eq_getLsbD s).symm.trans h)
  rw [State.setReply, flags]

end

theorem decoded_decoded (g : Segment) (s : State) : decoded g (decoded g s) = decoded g s := by
  rw [decoded, setSeg_eq_self, setSegv_eq_self, setStatus_eq_self] <;> simp [decoded]

theorem unreplied_eq_self {st : Status} {s : State} (segv : s.segv = false) (reply : s.reply = false)
    (status : s.status = statusCode st) : unreplied st s = s := by
  rw [unreplied, setSegv_eq_self segv, setReply_eq_self reply, setStatus_eq_self status]

/-- A reply that stands in its registers already. -/
theorem replied_eq_self {out : Segment} {s : State} (acc : s.acc = BitVec.ofNat 32 (segSum0 out))
    (ckout : s.ckout = compile (segSum0 out)) (seg : s.seg = out) (segv : s.segv = true) (reply : s.reply = true)
    (status : s.status = statusCode .ok) : replied out s = s := by
  rw [replied, setAcc_eq_self acc, setCkout_eq_self ckout, setSeg_eq_self seg, setSegv_eq_self segv,
    setReply_eq_self reply, setStatus_eq_self status]

/-- `OBUF` is not read by a reply. -/
theorem replied_setObuf_replied (out : Segment) (b : Bytes) (s : State) :
    replied out ((replied out s).setObuf b) = (replied out s).setObuf b := by
  refine replied_eq_self ?_ ?_ ?_ ?_ ?_ ?_
  · rw [setObuf_acc, replied_acc]
  · rw [setObuf_ckout, replied_ckout]
  · rw [setObuf_seg, replied_seg]
  · rw [segv_setObuf, replied_segv]
  · rw [reply_setObuf, replied_reply]
  · exact (setObuf_status _ b).trans (replied_status s out)

section
variable {t : State} {g : Segment} (buffer : decodeSeg t.ibuf t.inSrc t.inDst = some g)
include buffer

/-- What PROCESS leaves alone where it gives no reply. -/
theorem exec_process_eq_self_of_refused {st : Status} (decided : verdict t.cfg t.inputs g = .refused st)
    (seg : t.seg = g) (segv : t.segv = false) (reply : t.reply = false) (status : t.status = statusCode st)
    (obuf : t.obuf = []) : exec .process t = .next t := by
  rw [exec_process_of_verdict_refused t g st buffer decided, setSeg_eq_self seg, unreplied_eq_self segv reply status,
    setObuf_eq_self obuf]

/-- What PROCESS leaves alone where it gives a reply. -/
theorem exec_process_eq_self_of_next {out : Segment} (decided : verdict t.cfg t.inputs g = .next out)
    (reply : replied out t = t) (obuf : t.obuf = encodeSeg out) : exec .process t = .next t := by
  rw [exec_process_of_verdict_next t g out buffer decided, reply, setObuf_eq_self obuf]

end

section
variable {t : State} {g : Segment} (segv : t.segv = true) (seg : t.seg = g) (fits : wireLen g ≤ 65535)
include segv seg fits

/-- What CKGEN leaves alone: a segment with its own checksum, the sum and the checksum written. -/
theorem exec_ckgen_eq_self (acc : t.acc = BitVec.ofNat 32 (segSum0 g)) (ckout : t.ckout = compile (segSum0 g))
    (csum : g = withCsum g (compile (segSum0 g))) (ok : t.status = statusCode .ok) : exec .ckgen t = .next t := by
  subst seg
  rw [exec_ckgen_of_fits t segv fits, setAcc_eq_self acc, setCkout_eq_self ckout, setSeg_eq_self csum,
    setStatus_eq_self ok]

variable (acc : t.acc = BitVec.ofNat 32 (segSum g)) (ckout : t.ckout = compile (segSum g))
include acc ckout

theorem exec_ckverify_eq_self_of_valid (valid : compile (segSum g) = 0) (ckok : t.ckok = true)
    (ok : t.status = statusCode .ok) : exec .ckverify t = .next t := by
  subst seg
  rw [exec_ckverify_of_compile_eq_zero t segv fits valid, setAcc_eq_self acc, setCkout_eq_self ckout,
    setCkok_eq_self ckok, setStatus_eq_self ok]

theorem exec_ckverify_eq_self_of_bad (bad : compile (segSum g) ≠ 0) (ckok : t.ckok = false)
    (status : t.status = statusCode .badChecksum) : exec .ckverify t = .next t := by
  subst seg
  rw [exec_ckverify_of_compile_ne_zero t segv fits bad, setAcc_eq_self acc, setCkout_eq_self ckout,
    setCkok_eq_self ckok, setStatus_eq_self status]

end

/-! What CKGEN and CKVERIFY have left in the registers that they read and write. -/

section
variable (s : State) (v : Nat) (c : Half) (g : Segment) (b : Bool) (st : Status)

theorem generated_registers :
    ((((s.setAcc v).setCkout c).setSeg g).setStatus st).segv = s.segv ∧
      ((((s.setAcc v).setCkout c).setSeg g).setStatus st).seg = g ∧
      ((((s.setAcc v).setCkout c).setSeg g).setStatus st).acc = BitVec.ofNat 32 v ∧
      ((((s.setAcc v).setCkout c).setSeg g).setStatus st).ckout = c ∧
      ((((s.setAcc v).setCkout c).setSeg g).setStatus st).status = statusCode st :=
  ⟨rfl, rfl, rfl, rfl, rfl⟩

theorem checked_registers :
    ((((s.setAcc v).setCkout c).setCkok b).setStatus st).segv = s.segv ∧
      ((((s.setAcc v).setCkout c).setCkok b).setStatus st).seg = s.seg ∧
      ((((s.setAcc v).setCkout c).setCkok b).setStatus st).acc = BitVec.ofNat 32 v ∧
      ((((s.setAcc v).setCkout c).setCkok b).setStatus st).ckout = c ∧
      ((((s.setAcc v).setCkout c).setCkok b).setStatus st).ckok = b ∧
      ((((s.setAcc v).setCkout c).setCkok b).setStatus st).status = statusCode st := by
  simp

end

section
variable {s t : State}

theorem exec_decode_again (h : exec .decode s = .next t) : exec .decode t = .next t := by
  obtain ⟨buffer, rfl⟩ | ⟨g, buffer, rfl⟩ := exec_decode_eq_next h
  · rw [exec_decode_of_eq_none, setSegv_eq_self, setStatus_eq_self] <;> simp [buffer]
  · exact (exec_decode_of_eq_some (decoded g s) g buffer).trans (congrArg Host.Outcome.next (decoded_decoded g s))

theorem exec_encode_again (h : exec .encode s = .next t) : exec .encode t = .next t := by
  obtain ⟨segv, rfl⟩ | ⟨segv, long, rfl⟩ | ⟨segv, fits, rfl⟩ := exec_encode_eq_next h
  · rw [exec_encode_of_not_segv, setStatus_eq_self] <;> simp [segv]
  · rw [exec_encode_of_too_long, setStatus_eq_self] <;> simp [segv, long]
  · rw [exec_encode_of_fits, setObuf_eq_self, setStatus_eq_self] <;> simp [segv, fits]

/-- What CKGEN has written it writes again: the sum leaves the checksum out (R85). -/
theorem exec_ckgen_again (h : exec .ckgen s = .next t) : exec .ckgen t = .next t := by
  obtain ⟨segv, rfl⟩ | ⟨segv, long, rfl⟩ | ⟨segv, fits, rfl⟩ := exec_ckgen_eq_next h
  · rw [exec_ckgen_of_not_segv, setStatus_eq_self] <;> simp [segv]
  · rw [exec_ckgen_of_too_long, setStatus_eq_self] <;> simp [segv, long]
  · obtain ⟨segv', seg, acc, ckout, ok⟩ := generated_registers s (segSum0 s.seg) (compile (segSum0 s.seg))
      (withCsum s.seg (compile (segSum0 s.seg))) .ok
    have sum : segSum0 (withCsum s.seg (compile (segSum0 s.seg))) = segSum0 s.seg := segSum0_withCsum _ _
    have len : wireLen (withCsum s.seg (compile (segSum0 s.seg))) = wireLen s.seg := wireLen_withCsum _ _
    refine exec_ckgen_eq_self (segv'.trans segv) seg (len.trans_le fits) ?_ ?_ ?_ ok
    · rw [acc, sum]
    · rw [ckout, sum]
    · rw [sum, withCsum_withCsum]

theorem exec_ckverify_again (h : exec .ckverify s = .next t) : exec .ckverify t = .next t := by
  obtain ⟨segv, rfl⟩ | ⟨segv, long, rfl⟩ | ⟨segv, fits, valid, rfl⟩ | ⟨segv, fits, bad, rfl⟩ := exec_ckverify_eq_next h
  · rw [exec_ckverify_of_not_segv, setCkok_eq_self, setStatus_eq_self] <;> simp [segv]
  · rw [exec_ckverify_of_too_long, setCkok_eq_self, setStatus_eq_self] <;> simp [segv, long]
  · obtain ⟨segv', seg, acc, ckout, ckok, ok⟩ :=
      checked_registers s (segSum s.seg) (compile (segSum s.seg)) true .ok
    exact exec_ckverify_eq_self_of_valid (segv'.trans segv) seg fits acc ckout valid ckok ok
  · obtain ⟨segv', seg, acc, ckout, ckok, status⟩ :=
      checked_registers s (segSum s.seg) (compile (segSum s.seg)) false .badChecksum
    exact exec_ckverify_eq_self_of_bad (segv'.trans segv) seg fits acc ckout bad ckok status

/-- PROCESS decodes the same buffer again and decides the same (R111). -/
theorem exec_process_again (h : exec .process s = .next t) : exec .process t = .next t := by
  obtain ⟨buffer, rfl⟩ | ⟨g, st, buffer, decided, rfl⟩ | ⟨g, out, buffer, decided, rfl⟩ := exec_process_eq_next h
  · rw [exec_process_of_truncated, unreplied_eq_self, setObuf_eq_self] <;> simp [buffer]
  · refine exec_process_eq_self_of_refused (g := g) (st := st) ?buffer ?decided ?seg ?segv ?reply ?status
      (setObuf_obuf _ _)
    case buffer => rwa [setObuf_ibuf, setObuf_inSrc, setObuf_inDst, unreplied_ibuf, unreplied_inSrc, unreplied_inDst]
    case decided => rwa [setObuf_cfg, setObuf_inputs, unreplied_cfg, unreplied_inputs]
    case seg => rw [setObuf_seg, unreplied_seg, setSeg_seg]
    case segv => rw [segv_setObuf, unreplied_segv]
    case reply => rw [reply_setObuf, unreplied_reply]
    case status => rw [setObuf_status, unreplied_status]
  · refine exec_process_eq_self_of_next (g := g) (out := out) ?buffer ?decided ?reply (setObuf_obuf _ _)
    case buffer => rwa [setObuf_ibuf, setObuf_inSrc, setObuf_inDst, replied_ibuf, replied_inSrc, replied_inDst]
    case decided => rwa [setObuf_cfg, setObuf_inputs, replied_cfg, replied_inputs]
    case reply => exact replied_setObuf_replied out _ s

theorem exec_mkseg_again (h : exec .mkseg s = .next t) : exec .mkseg t = .next t := by
  cases h
  rw [exec_mkseg_eq, setSegv_eq_self, setStatus_eq_self] <;> simp

end

/-- A segment to another port: RESPOND rejects it, and then finds none (R110). -/
theorem exec_respond_again_differs :
    ∃ s t : State, exec .respond s = .next t ∧ exec .respond t ≠ .next t := by
  have segv : ({ State.reset with flags := 0x01 } : State).segv = true := by decide
  refine ⟨{ State.reset with flags := 0x01 }, _,
    exec_respond_of_no_reply _ 0 segv (respondPolicy_of_unserved _ _ _ _ (by decide)), ?_⟩
  rw [exec_respond_of_not_segv _ (by decide)]
  intro same
  have status := congrArg State.status (Host.Outcome.next.inj same)
  revert status
  decide

/-- Settles O59: each command runs again on what it left; RESPOND rejects a segment once and then has none. -/
theorem commandsAreIdempotent : Obligations.CommandsAreIdempotent := by
  refine ⟨?again, exec_respond_again_differs⟩
  simp only [List.forall_mem_cons]
  refine ⟨fun _ _ => exec_decode_again, fun _ _ => exec_encode_again, fun s t h => ?sum, fun s t h => ?compile,
    fun _ _ => exec_ckgen_again, fun _ _ => exec_ckverify_again, fun _ _ => exec_mkseg_again, fun s t h => ?clear,
    fun _ _ => exec_process_again, List.forall_mem_nil _⟩
  case sum => cases h; rfl
  case compile => cases h; rfl
  case clear => cases h; rfl

end Sys2Proof.Machine
end
